-- ==== Sys2Proof/Word.lean ====
section
/-! DEFINITION. The word types of the FJX3200 and the sparse tables the state is held in (R8, R10, R12). -/

namespace Sys2Proof

/-- One byte of a frame, header, record or flash cell (R10). -/
abbrev Byte := BitVec 8

/-- A BAR0 register word: 32 bits (R12). -/
abbrev Word := BitVec 32

/-- A byte string, byte 0 first (R10). -/
abbrev Bytes := List Byte

/-- A code group of the Ridge's line code (R525). -/
abbrev CodeGroup := BitVec 10

/-- Sparse data by key: pairs in strictly rising key order, none equal to the table's default. -/
abbrev Tab (α : Type) := List (Nat × α)

/-- A number's low `n` bytes, most significant first (R10). -/
def bytesOfNat : Nat → Nat → Bytes
  | 0, _ => []
  | n + 1, v => BitVec.ofNat 8 (v >>> (8 * n)) :: bytesOfNat n v

/-- The number a byte string spells, most significant byte first (R10). -/
def natOfBytes (b : Bytes) : Nat := b.foldl (fun a x => a * 256 + x.toNat) 0

/-- Bits [hi:lo] of a number (R8). -/
def bits (v hi lo : Nat) : Nat := (v >>> lo) % 2 ^ (hi + 1 - lo)

/-- Bit `i` of a number (R8). -/
def bit (v i : Nat) : Bool := v.testBit i

/-- A Boolean as the number a one-bit field holds. -/
def b2n (b : Bool) : Nat := if b then 1 else 0

end Sys2Proof
end

