-- ==== Sys2Proof/Types.lean ====
section
/-! DEFINITION. The plain data the state and the commands are made of: coach records, key slots, units, batches,
classification entries, lane and port states, time bases. -/

namespace Sys2Proof

/-- Switch state of a coach (R215, R238). -/
inductive SwState where
  | empty | one | ready | txAhead | grace
  deriving DecidableEq, Repr

/-- What a coach takes its stage keys from (R210): neither in use, derived or delivered. -/
inductive CoachKind where
  | idle | derived | delivered
  deriving DecidableEq, Repr

/-- Cause of a chock (R238). -/
inductive ChockCause where
  | none | hardLimit | mirrorErr
  deriving DecidableEq, Repr

/-- A key slot of the vault's key store (R207). -/
structure Slot where
  key    : BitVec 256
  salt   : BitVec 96
  stage  : Nat
  nextPn : Nat
  /-- Uncorrectable NEXT_PN: the slot receives nothing (R230). -/
  rxBad  : Bool
  deriving DecidableEq, Repr

/-- Kind of a PN counter error (R229). -/
inductive PnErr where
  | corrected | loOrHi | mirror
  deriving DecidableEq, Repr

/-- The running state of a coach beside its record words (R201, R207, R215, R228, R428). -/
structure CoachDyn where
  sw       : SwState
  /-- Transmit stage, CO_STAGE (R237). -/
  stage    : Nat
  /-- The two key slots (R207). -/
  slotA    : Option Slot
  slotB    : Option Slot
  /-- The two-level transmit PN counter and its mirror (R228). -/
  hi       : Nat
  lo       : Nat
  mirror   : Nat
  chock    : Bool
  cause    : ChockCause
  /-- GRACE_LEFT (R238). -/
  grace    : Nat
  advPend  : Bool
  probe    : Bool
  /-- NXT of the last superframe that verified under the coach (R216). -/
  lastNxt  : Bool
  /-- Beat at which the transmit stage began (R214). -/
  began    : Nat
  /-- A committed ADV_REQ, due at the next boundary (R214). -/
  advReq   : Bool
  /-- The hard limit was reached in the beat under way (R225). -/
  hitHard  : Bool
  /-- MIRROR is uncorrectable: nothing is sent from now on (R229). -/
  mirBad   : Bool
  /-- Code errors of the PN counter that the next PN finds (R229). -/
  pnErr    : List PnErr
  /-- R229 or R230 made an advance due at the next boundary. -/
  errDue   : Bool
  /-- Stage of a unit verified in the beat under way (R215). -/
  verified : Option Nat
  /-- Inbound pipe whose probe slot verified a unit: its stage is taken at the next boundary that allows it (R220, R224). -/
  jump     : Option Nat
  /-- KEYSRC, CK_INDEX or the coach's kind changed at the last commit (R215). -/
  restart  : Bool
  /-- Policer buckets and time (R428). -/
  tc       : Nat
  tp       : Nat
  tLast    : Nat
  deriving DecidableEq, Repr

/-- A coach that nothing has touched since reset. -/
def CoachDyn.init : CoachDyn :=
  { sw := .empty, stage := 0, slotA := none, slotB := none, hi := 0, lo := 0, mirror := 0, chock := false,
    cause := .none, grace := 0, advPend := false, probe := false, lastNxt := false, began := 0, advReq := false,
    hitHard := false, mirBad := false, pnErr := [], errDue := false, verified := none, jump := none, restart := false,
    tc := 0, tp := 0, tLast := 0 }

/-- An unwrapped key-window delivery as the open batch holds it (R271, R273). -/
structure Delivery where
  /-- KIND 1 stage key, 2 connectivity key, 3 connectivity-key erase (R269). -/
  kind   : Nat
  /-- Coach, or CK index. -/
  target : Nat
  stage  : Nat
  key    : BitVec 256
  salt   : BitVec 96
  deriving DecidableEq, Repr

/-- One entry of a batch: a staged word (R637) or a delivery (R273). -/
inductive Entry where
  | word (key : Nat) (val : Word)
  | dlv (d : Delivery)
  deriving DecidableEq, Repr

/-- A sealed batch waiting for its apply-beat (R45, R47). -/
structure Batch where
  seq     : Nat
  apply   : Nat
  entries : List Entry
  deriving DecidableEq, Repr

/-- Outcome of a seal, coded as in R46. -/
inductive SealResult where
  | none | accepted | late | full | horizon | overflow | value | latDec | notReady
  deriving DecidableEq, Repr

/-- One request of the derivation queue (R211); `probe` names the Inbound pipe of a probe derivation (R224). -/
structure DrvReq where
  coach : Nat
  stage : Nat
  probe : Option Nat
  deriving DecidableEq, Repr

/-- The probe slot of an Inbound pipe (R224). -/
structure Probe where
  coach    : Nat
  stage    : Nat
  slot     : Option Slot
  /-- Beat at whose boundary the slot was loaded. -/
  loadedAt : Nat
  deriving DecidableEq, Repr

/-- What the Loft holds for a unit, from its assignment to its release (R26, R384, R447). -/
structure Pkt where
  /-- Ingress port slot, 0-31 client, 32-63 line (R386). -/
  ingress : Nat
  beat    : Nat
  index   : Nat
  /-- Eave CCLK offset from the start of the arrival beat; may be negative for a carried frame (R183). -/
  offset  : Int
  /-- Receive timestamps in the four time bases, in 2^-16 ns (R447). -/
  rts     : List Nat
  /-- Absolute CCLK of the eave point they come from; of a carried frame its superframe's (R450). -/
  eave    : Nat
  /-- The bytes the unit holds: as received, as protected, or as rebuilt. -/
  bytes   : Bytes
  /-- Egress port slot. -/
  egress  : Nat
  tc      : Nat
  /-- Coach it was protected or verified under; 0 clear. -/
  coach   : Nat
  /-- Absolute due CCLK (R31). -/
  due     : Nat
  /-- Bytes counted against the Loft (R384). -/
  held    : Nat
  /-- Cells held in banks 0-3 (R382). -/
  cells   : List Nat
  /-- Pipe that processed it: d Outbound, 4 + d Inbound. -/
  pipe    : Nat
  /-- Processing beat, for the ghosts of R515. -/
  proc    : Nat
  /-- Of a relay unit: its Outbound pipe has read it (R390). -/
  read    : Bool
  /-- Absolute CCLK of its push (R688). -/
  pushAt  : Nat
  /-- Byte i of the first `split` bytes is written in CCLK (wrFrom + wrStep i) / wrDiv, and byte split + i in
  (wrNext + wrStep i) / wrDiv (R103, R142, R183); wrDiv 0 means whole at once. -/
  wrDiv   : Nat
  wrStep  : Nat
  wrFrom  : Nat
  split   : Nat
  wrNext  : Nat
  /-- Earliest start set by verify-first verdicts (R188); of a unit in a relay queue its target CCLK (R103, R189). -/
  notBefore : Nat
  /-- A correction with a planned departure was made in time base n with this due CCLK (R461, R462). -/
  planned : Bool
  /-- The message is to be corrected at its actual start (R461). -/
  actual  : Bool
  /-- The unit is a ghost of DRAIN (R515). -/
  ghost   : Bool
  deriving DecidableEq, Repr

/-- An entry of an egress queue: a unit or a gap marker (R387, R395). -/
inductive QEntry where
  | unit (p : Pkt)
  | gap (due ingress : Nat) (offset : Int) (index count : Nat)
  deriving DecidableEq, Repr

/-- A unit as its port input stage assigned it (R25, R26). -/
structure Arrival where
  /-- Port slot (R386). -/
  port   : Nat
  beat   : Nat
  index  : Nat
  offset : Nat
  phi    : Nat
  rts    : List Nat
  /-- The bytes kept (at most 9,216 of a frame, R88); empty for a void position. -/
  bytes  : Bytes
  /-- The length received (R27, R119). -/
  len    : Nat
  /-- MATCH of the bytes as received, whole (R486). -/
  sum    : Nat
  /-- A Thatch position that is not a unit (R180). -/
  void   : Bool
  /-- Its processing has started. -/
  taken  : Bool
  /-- FIXED_LAT at its assignment (R37). -/
  lat    : Nat
  /-- Ordinal of a Thatch position on its port. -/
  ord    : Nat
  /-- A partner's input stage keeps it until a record assigns it (R489). -/
  held   : Bool
  deriving DecidableEq, Repr

/-- Which counter a received unit ends in, in the order of R148. -/
inductive RxResult where
  | badTag | unknownSc | inBadTag | inNoSa | inLate | tagFail | ok
  deriving DecidableEq, Repr

/-- A frame-mode unit between its cipher start and its verdict (R142, R143). -/
structure PendingVerdict where
  port    : Nat
  /-- Absolute verdict CCLK. -/
  at_     : Nat
  beat    : Nat
  index   : Nat
  /-- What the checks that need no replay state gave. -/
  result  : RxResult
  tagOk   : Bool
  coach   : Nat
  stage   : Nat
  /-- Pipe whose probe slot it was checked under (R224). -/
  probe   : Bool
  pnLow   : Nat
  /-- PN that the cipher ran under. -/
  pn      : Nat
  /-- REPLAY_EN and REPLAY_WIN at the cipher start (R149). -/
  replayEn  : Bool
  replayWin : Nat
  /-- Delivered length, and whether it is dropped under R82. -/
  octets  : Nat
  macCtl  : Bool
  /-- Its egress port broke R85, or its coach names no relay target. -/
  route   : Bool
  relay   : Bool
  /-- Learning event it raises when it passes (R326): client port, key, coach. -/
  learn   : Option (Nat × Nat)
  /-- Full stage further ahead, for a jump probe (R224). -/
  probeReq : Option Nat
  deriving DecidableEq, Repr

/-- A superframe position between its cipher start and its verdict (R186). -/
structure PendingSf where
  port    : Nat
  at_     : Nat
  /-- Ordinal of the position on its port. -/
  ord     : Nat
  /-- All checks of R181 passed; otherwise the verdict fails. -/
  ok      : Bool
  /-- It reached check 4 (R192). -/
  reached : Bool
  /-- It reached check 6 and failed it. -/
  tagFail : Bool
  coach   : Nat
  stage   : Nat
  seq     : Nat
  /-- Pipe whose probe slot it was checked under (R224). -/
  probe   : Bool
  alarm   : Nat
  nxt     : Bool
  octets  : Nat
  deriving DecidableEq, Repr

/-- What the payload parser is in the middle of (R182). -/
inductive RxItem where
  /-- It waits for the FDP of the next superframe. -/
  | fdp
  /-- At an item's beginning, with the bytes of its delimiter so far. -/
  | delim (b : Bytes)
  /-- In a client frame: LEN and the bytes so far. -/
  | frame (len : Nat) (b : Bytes)
  deriving DecidableEq, Repr

/-- What the parser finds in a payload, in order (R182). -/
inductive Piece where
  /-- A client frame whose first byte is byte y of the superframe and which ends in it. -/
  | whole (y len tc : Nat) (b : Bytes)
  /-- The first part of one that the next superframe ends. -/
  | opens (y len tc : Nat) (b : Bytes)
  /-- The last part of one, whole as `b`. -/
  | closes (len : Nat) (b : Bytes)
  /-- A delimiter error. -/
  | delimErr
  deriving DecidableEq, Repr

/-- A carried frame some of whose verdicts are still to come (R190). -/
structure LiveFrame where
  beat    : Nat
  index   : Nat
  /-- Superframes that hold bytes of it and whose verdict is to come. -/
  waits   : List Nat
  started : Bool
  /-- Ended with the stomped end before its verdict (R401). -/
  cut     : Bool
  /-- Dropped under R82 when every verdict passes. -/
  macCtl  : Bool
  relay   : Bool
  /-- Learning event it raises when every verdict passes (R326): client port and key. -/
  learn   : Option (Nat × Nat)
  coach   : Nat
  /-- The unit of a frame too few of whose bytes have come to show its EtherType: no byte of it is written yet (R82). -/
  unit    : Option Pkt
  deriving DecidableEq, Repr

/-- A superframe being handed to the PCS, from its first CCLK on (R159, R174-R176). -/
structure TxSf where
  /-- Header bytes 0-25. -/
  start : Bytes
  key   : BitVec 256
  iv    : BitVec 96
  fdp   : Nat
  /-- It is an AIS superframe, and the coach whose OUT_CHOCKED counts what is dropped (R176). -/
  ais   : Bool
  coach : Nat
  /-- Start, in units of 1/(5r) CCLK. -/
  at_   : Nat
  /-- Payload offset reached, and the payload so far, last piece first. -/
  off   : Nat
  out   : List Bytes
  deriving DecidableEq, Repr

/-- A learning event raised in the beat under way (R326). -/
structure LearnEvent where
  /-- Ingress line port 0-31. -/
  lport : Nat
  beat  : Nat
  index : Nat
  /-- Client port 0-31. -/
  cport : Nat
  /-- Key K of R307. -/
  key   : Nat
  coach : Nat
  deriving DecidableEq, Repr

/-- Kind of an overflow entry (R317, R322). -/
inductive OvfKind where
  | hostInsert | hostTomb | learned
  deriving DecidableEq, Repr

/-- What an overflow entry is keyed on: an exact-match key, or a prefix (R317). -/
inductive OvfKey where
  | exact (k : Nat)
  | prefix4 (len v : Nat)
  | prefix6 (len v : Nat)
  deriving DecidableEq, Repr

/-- An entry of the overflow store (R317). -/
structure OvfEntry where
  key    : OvfKey
  kind   : OvfKind
  coach  : Nat
  /-- LEARNED: seen rather than idle (R332). -/
  seen   : Bool
  /-- Parked, with the generation tags of its candidates when it was parked (R324). -/
  parked : Option (Nat × Nat)
  deriving DecidableEq, Repr

/-- Where the learn cache says an exact-match entry stands (R317). -/
inductive CacheLoc where
  | overflow (i : Nat)
  | bucket (b slot : Nat)
  deriving DecidableEq, Repr

/-- A line of the learn cache (R317, R318). -/
structure CacheLine where
  key   : Nat
  coach : Nat
  loc   : CacheLoc
  deriving DecidableEq, Repr

/-- A move record (R317, R328). -/
structure MoveRec where
  key     : Nat
  release : Nat
  deriving DecidableEq, Repr

/-- What a migration step changes (R323, R324). A line id is a bucket number, or 2^20 plus a data line number n (R312). -/
inductive Flip where
  /-- The overflow entry is freed; `static` counts LEARN_STATIC. -/
  | free (static : Bool)
  /-- The position is emptied and the tombstone freed. -/
  | empty (id slot : Nat)
  /-- The position takes the entry's state; `migrated` counts MIGRATED, `moved` makes a move record. -/
  | place (id slot : Nat) (migrated moved : Bool)
  /-- The residents are being examined. -/
  | scan
  /-- A resident is relocated from one bucket slot to another. -/
  | relocate (b slot b2 slot2 : Nat)
  /-- The entry is parked. -/
  | park
  deriving DecidableEq, Repr

/-- A migration or relocation step under way (R323-R325, R686). -/
structure MigStep where
  /-- Overflow index of the entry it moves, and the entry as it was read. -/
  idx    : Nat
  entry  : OvfEntry
  /-- Line ids held, and the generation tags recorded. -/
  lines  : List Nat
  gens   : List (Nat × Nat)
  flip   : Flip
  /-- Its operations are done: it flips at the next boundary. -/
  ready  : Bool
  /-- Next resident to examine, 0-7, and whether one was skipped (R324). -/
  next   : Nat
  skip   : Bool
  deriving DecidableEq, Repr

/-- The classification state of one Dray (R317). -/
structure ClsDray where
  /-- Position states by 4 × line id + slot: 1 STATIC, 2 LEARNED idle, 3 LEARNED seen. -/
  pos    : Tab Nat
  /-- Generation tags by line id. -/
  gen    : Tab Nat
  ovf    : Tab OvfEntry
  cache  : Tab CacheLine
  moves  : Tab MoveRec
  /-- Bloom bits set, by family, length and bit (R311). -/
  bloom  : Tab Nat
  steps  : List MigStep
  deriving DecidableEq, Repr

/-- The classification state of a Dray at a start (R317). -/
def ClsDray.init : ClsDray := { pos := [], gen := [], ovf := [], cache := [], moves := [], bloom := [], steps := [] }

/-- State of a time base (R453). -/
inductive TbState where
  | off | free | track | holdover
  deriving DecidableEq, Repr

/-- A time base (R442, R453, R454). -/
structure TimeBase where
  /-- SEC, NS, FRAC and the 24 bits below it as one count of 2^-40 ns, at `asOf`. -/
  val    : Nat
  /-- Absolute CCLK during which the value is `val`. -/
  asOf   : Nat
  /-- INC in effect, in 2^-40 ns per CCLK (R444). -/
  inc    : Nat
  en     : Bool
  state  : TbState
  /-- Beat of the last KEEP commit, or of the last accepted PPS edge (R453). -/
  last   : Nat
  prevE  : Int
  perr   : Int
  /-- A step and an INC that the PPS discipline makes at the next boundary (R446, R454). -/
  ppsStep : Int
  ppsInc  : Option Nat
  /-- Changes of the boundary under way: a set, and the steps after it (R446). -/
  setTo   : Option Nat
  acc     : Int
  /-- Adjustments made, as (absolute CCLK, signed amount in 2^-40 ns), for the residences of R460. -/
  adjs   : List (Nat × Int)
  /-- A state change that takes effect at the next boundary (R453). -/
  next   : Option TbState
  /-- Spans before `asOf`, newest first: first absolute CCLK, value during it, and what each later CCLK of the span adds. -/
  past   : List (Nat × Nat × Nat)
  deriving DecidableEq, Repr

/-- A time base before beat 0 (R443). -/
def TimeBase.init : TimeBase :=
  { val := 0, asOf := 0, inc := 0xD555555555, en := false, state := .off, last := 0, prevE := 0, perr := 0, ppsStep := 0,
    ppsInc := none, setTo := none, acc := 0, adjs := [], next := none, past := [] }

/-- A PPS input (R451, R452). -/
structure PpsIn where
  offset : Nat
  phi    : Nat
  beat   : Nat
  caps   : List Nat
  /-- Beat of the last accepted edge. -/
  lastOk : Option Nat
  /-- Edges captured and not yet acted on: the beat of each and its captured times (R488). -/
  waiting : List (Nat × List Nat)
  /-- A partner's own captures, which stand for the active's in a beat whose record is lost: beat, offset, φ and the
  captured values (R451, R509). -/
  kept    : List (Nat × Nat × Nat × List Nat)
  deriving DecidableEq, Repr

/-- A PPS output (R455). -/
structure PpsOut where
  level   : Bool
  lastSec : Option Nat
  /-- What the time base still counts up to the falling edge, in 2^-40 ns, from the start of absolute CCLK `since`. -/
  left    : Nat
  since   : Nat
  /-- Quarter of its CCLK in which the last edge was placed. -/
  phi     : Nat
  deriving DecidableEq, Repr

/-- A port of either side (R106, R115). -/
structure PortDyn where
  pcs    : Bool
  fec    : Bool
  sig    : Bool
  /-- Signal was lost, or had not come, in the beat under way (R192). -/
  sigLost : Bool
  /-- Marker number and inversion of the receive lanes, as last presented (R79). -/
  lanes   : List (Nat × Bool)
  ltDone : Bool
  /-- Conditions of R106 and R192 as presented at the last boundary (R488). -/
  prevUp  : Bool
  prevPhy : Nat
  /-- LINK_UP in effect. -/
  linkUp : Bool
  /-- Units numbered so far in the beat under way (R26). -/
  count  : Nat
  /-- Transmit phase measured at the last two boundaries and the one in use (R448). -/
  phNow  : Nat
  phPrev : Nat
  phUse  : Nat
  /-- First absolute CCLK at which the port may start its next unit (R33). -/
  freeAt : Nat
  deriving DecidableEq, Repr

/-- What a port's FEC decoder presents: its alignment lock, and the code words it has corrected and given up since it last
presented them (R106, R119), and what its alignment markers find on the port's receive lanes (R79). -/
structure FecIn where
  lock   : Bool
  corr   : Nat
  uncorr : Nat
  /-- For each lane of the port in turn, the number in the port's lane set that its markers carry, and whether it comes inverted;
  lanes not listed come straight. -/
  lanes  : List (Nat × Bool)
  deriving DecidableEq, Repr

/-- A unit being transmitted (R403). -/
structure TxUnit where
  pkt   : Pkt
  start : Nat
  /-- Ended with the stomped end: the bytes that were handed over for it (R403). -/
  stomp : Option Bytes
  deriving DecidableEq, Repr

/-- What a port's transmit lanes carry in a CCLK (R108, R195, R363, R403, R503). -/
inductive LineOut where
  | electricalIdle | idles | localFault
  /-- A unit under way, and the bytes handed over by the end of the CCLK. -/
  | frame (p : Pkt) (n : Nat)
  /-- The stomped end: what is handed over, an error control block after it. -/
  | stomped (b : Bytes) (n : Nat)
  /-- The superframe stream. -/
  | superframes
  deriving DecidableEq, Repr

/-- State of a Thatch aligner (R178). -/
inductive Align where
  | hunt | presync | sync
  deriving DecidableEq, Repr

/-- A candidate the aligner holds (R178). -/
structure Cand where
  pos   : Nat
  /-- It stands by its FAW, and by its HCRC; one position may be a candidate of both kinds. -/
  faw   : Bool
  crc   : Bool
  seq   : Nat
  ais   : Bool
  /-- Recurrences that fitted. -/
  hits  : Nat
  deriving DecidableEq, Repr

/-- A Thatch line port's receive and transmit state (R165, R178, R192). -/
structure ThatchDyn where
  align  : Align
  /-- Data-block position count. -/
  pos    : Nat
  /-- Position of the last FAW candidate seen. -/
  lastFaw : Option Nat
  cands  : List Cand
  /-- Expected position in SYNC. -/
  expect : Nat
  misses : Nat
  /-- Positions delivered or void since SYNC, counted from 0. -/
  ord    : Nat
  /-- Run counters of R192: breaks, continuous, PLM, not-PLM, AIS, not-AIS, TAG failures, verified. -/
  runs   : List Nat
  lastSf : Option (Nat × Nat)
  /-- Conditions of the ranked defects now, LOS bit 6 to TAG bit 0 (R192, R198). -/
  cond   : Nat
  /-- DEF_RAW: in effect (R193). -/
  raw    : Nat
  rpt    : Nat
  rdiRx  : Bool
  csfRx  : Bool
  /-- Outcomes of positions that reached check 4 whose turn in the order of positions has not come (R192). -/
  tagWait : List (Nat × Bool)
  rxItem : RxItem
  /-- Arrival beat and index of the client frame that the parser is in. -/
  rxOpen : Nat × Nat
  live   : List LiveFrame
  /-- Arrival indices given to carried frames in a beat. -/
  rxBeat : Nat
  rxIdx  : Nat
  /-- Transmit: a superframe stream is running. -/
  txOn   : Bool
  /-- Absolute CCLK numerator: start of the next superframe, in units of 1/r of 9.6 bytes. -/
  txNext : Nat
  /-- Bytes of a packed item still to send, and the coach and length it came from. -/
  txLeft : Bytes
  txOwner : Option Pkt
  /-- The superframe under way, and the last one whose payload was complete. -/
  txSf   : Option TxSf
  txLast : Bytes
  deriving DecidableEq, Repr

/-- State of a switchable power domain (R614). -/
inductive DomState where
  | off | powering | on | draining
  deriving DecidableEq, Repr

/-- A power domain (R614, R625). -/
structure Domain where
  state     : DomState
  pendingOn : Bool
  /-- Beat of entry into the state; before beat 0, beats since reset release. -/
  since     : Nat
  /-- It has powered since it was last OFF and has not been ON yet (R614, R617). -/
  anew      : Bool
  deriving DecidableEq, Repr

/-- The Postilion's state of one source (R555-R560, R587). -/
structure SrcDyn where
  open_    : Bool
  winStart : Nat
  winCnt   : Nat
  severe   : Bool
  errh     : Bool
  lastSev  : Nat
  /-- The condition of a kind C source holds (R552). -/
  cond     : Bool
  /-- The last applied set held INT (R635). -/
  lastInt  : Bool
  deriving DecidableEq, Repr

/-- Pair state (R501). -/
inductive PairState where
  | fenced | solo | active | standby | syncing
  deriving DecidableEq, Repr

/-- A digest message (R495). -/
structure DigestMsg where
  beat    : Nat
  state   : Nat
  roleReq : Bool
  intact  : Bool
  coast   : Bool
  yield_  : Bool
  whipReq : Bool
  arrive  : Int
  floor   : Nat
  image   : BitVec 64
  digests : List (BitVec 64)
  deriving DecidableEq, Repr

/-- A unit entry of a boundary record (R486). -/
structure RecUnit where
  slot   : Nat
  offset : Nat
  phi    : Nat
  void   : Bool
  match_ : Nat
  deriving DecidableEq, Repr

/-- A boundary record, parsed (R483-R487). -/
structure BRecord where
  beat   : Nat
  ovf    : Bool
  /-- Port entries: count, transmit phase, LINK, PHY. -/
  ports  : List (Nat × Nat × Bool × Nat)
  units  : List RecUnit
  /-- Event entries, 16 bytes each. -/
  events : List Bytes
  deriving DecidableEq, Repr

/-- State of a Ridge receive lane (R538). -/
inductive LaneState where
  | off | search | candidate | hunt | locked
  deriving DecidableEq, Repr

/-- A Ridge lane (R538, R541, R542). -/
structure Lane where
  state   : LaneState
  /-- Held candidates: position, BEAT for the hunt, and how many recurrences fitted. -/
  cands   : List (Nat × Nat × Nat)
  /-- Expected marker position, counted from the device's own boundary (R550). -/
  pos     : Nat
  misses  : Nat
  /-- CCLK since reset release at which SEARCH or HUNT was entered. -/
  since   : Nat
  /-- BEAT of the last frame used, and whether its TYPE was DATA. -/
  beat    : Nat
  data    : Bool
  /-- Bytes of the frame of the beat under way, when it arrived in LOCKED with a fitting HCRC. -/
  segA    : Option Bytes
  segB    : Option Bytes
  rxUp    : Bool
  /-- Code groups in the elastic buffer (R526). -/
  fill    : Nat
  /-- The running disparity is positive, as received and as sent (R525). -/
  rxRd    : Bool
  txRd    : Bool
  prbsLock : Bool
  prbsReg  : Nat
  prbsAgree : Nat
  /-- Error bits in the last 1,024 checked, newest first (R542). -/
  prbsErrs : List Bool
  /-- Transmit generator, pending inversion and bits since the last continuous injection (R541, R543). -/
  txReg   : Nat
  inj     : Bool
  injCnt  : Nat
  /-- A frame has arrived since the last frame set, and it is one to use (R539). -/
  fresh   : Bool
  usable  : Bool
  deriving DecidableEq, Repr

/-- What a receive lane finds at a code-group position: whether a marker stands there, whether its header decoded with no CG_ERR,
the header's bytes and the bytes of the two segments with their checks (R528, R538). -/
structure RxFrame where
  marker : Bool
  clean  : Bool
  hdr    : Bytes
  segA   : Bytes
  segB   : Bytes
  deriving DecidableEq, Repr

/-- A key-window job as KW_GO copied it (R269, R270). -/
structure KwJob where
  window  : Nat
  kind    : Nat
  kek     : Nat
  /-- Word 1, KW_TARGET. -/
  target  : Nat
  blob    : Bytes
  deriving DecidableEq, Repr

/-- What a key-engine job does (R258, R259). -/
inductive JobWork where
  | knownAnswer
  | checkValue (kek : Nat)
  | window (j : KwJob)
  | ckCommit
  deriving DecidableEq, Repr

/-- A job of the key engine's queue: what it does, whether it has started and what it unwrapped under (R258, R267). -/
structure EngJob where
  work    : JobWork
  started : Bool
  /-- The KEK taken at the job's start (R267). -/
  kek     : BitVec 256
  /-- CCLK passed when it joined the queue (R258). -/
  joined  : Nat
  /-- Of a started job: blocks still to start when the beat under way began, or when the job started in it (R259). -/
  left    : Nat
  /-- CCLK offset at which it takes the first of them, or, when none is left, at which the last one ends; before beat 0, CCLK passed
  by then (R257). -/
  from_   : Nat
  deriving DecidableEq, Repr

/-- A KEK slot (R266, R298). -/
structure Kek where
  key  : BitVec 256
  uses : Nat
  /-- KEK_LOW was set since the slot's last agreement (R267). -/
  low  : Bool
  deriving DecidableEq, Repr

/-- Life-cycle state (R244). -/
inductive LifeCycle where
  | vendor | owner | ret
  deriving DecidableEq, Repr

/-- What the PUF's SRAM cells hold: nothing while they are without power, their power-up state, or the zeros written over it
(R241, R243). -/
inductive PufCells where
  | off | powerUp | zero
  deriving DecidableEq, Repr

/-- An item of the OTP that a check word covers, but for the owner hashes (R240). -/
inductive OtpItem where
  | serial | pufHelper | pufCheck | vendorHash | caHash | cert | lcOwner | lcReturn
  | epoch (i : Nat)
  deriving DecidableEq, Repr

/-- How the OTP writes of a life-cycle transition go: all done, one that cannot be verified, or power fails in one (R250). -/
inductive OtpEnd where
  | done | hashFails | fuseFails | hashCut | fuseCut
  deriving DecidableEq, Repr

/-- The one-time-programmable memory (R240). -/
structure Otp where
  serial     : BitVec 64
  pufHelper  : Bytes
  pufCheck   : BitVec 64
  vendorHash : BitVec 384
  caHash     : BitVec 384
  cert       : Bytes
  lcOwner    : Bool
  lcReturn   : Bool
  /-- EPOCH fuses burnt, 0-16. -/
  epochs     : Nat
  /-- OWNER_HASH[e], by epoch, and whether its check word fits; a partial value fails its check (R250). -/
  ownerHash  : Tab (BitVec 384 × Bool)
  /-- Other items whose check word does not fit their content (R240; log entry 69). -/
  unfit      : List OtpItem
  deriving DecidableEq, Repr

/-- A pending Whip (R568, R569, R571). -/
structure WhipDue where
  due   : Nat
  trig  : Nat
  src   : Nat
  fault : Nat
  deriving DecidableEq, Repr

/-- One message of the COMMAND channel (R491). -/
inductive PairCmd where
  | write (key : Nat) (val : Word)
  | discard
  | seal (apply : Nat)
  | lost
  deriving DecidableEq, Repr

/-- What the beat boundary takes from outside (R448, R501, R614, R618, R674). -/
structure BoundaryIn where
  /-- Levels of ARB_ROLE and ARB_FENCE at the boundary, and for how long each has stood, in ns (R674). -/
  role  : Bool
  fence : Bool
  roleNs  : Nat
  fenceNs : Nat
  /-- Junction reading in quarter degrees (R618). -/
  temp  : Int
  /-- Transmit phase of each port slot at the boundary (R448). -/
  phase : Tab Nat
  /-- Domains whose supply is not in its commanded state (R614). -/
  badDomains : List Nat
  /-- The straps SMB_ADDR[1:0], which reset release samples (R645). -/
  straps : Nat
  deriving DecidableEq, Repr

/-- A rise of ARB_FENCE: the CCLK of the beat in which it has stood for `heldNs` ns (R503, R674). -/
structure FenceEdge where
  time   : Nat
  heldNs : Nat
  deriving DecidableEq, Repr

/-- An item of the function's configuration space (R628). -/
inductive CfgItem where
  /-- Device ID and vendor ID. -/
  | ids
  /-- Class code and revision ID. -/
  | classRev
  /-- Subsystem ID and subsystem vendor ID. -/
  | subsystem
  /-- Base address register i, 0-5. -/
  | bar (i : Nat)
  /-- The expansion ROM's base address. -/
  | rom
  /-- Identifier of the i-th capability. -/
  | cap (i : Nat)
  /-- The device serial number's words. -/
  | serialLo
  | serialHi
  /-- The maximum payload size in effect: 0 for 128 bytes, 1 for 256. -/
  | payload
  /-- The power state: 0 for D0, 3 for D3hot. -/
  | power
  deriving DecidableEq, Repr

/-- Where a request of the host goes: an offset in BAR0 or in BAR2, or the configuration space (R628). -/
inductive HostAddr where
  | bar0 (off : Nat)
  | bar2 (off : Nat)
  | cfg (i : CfgItem)
  deriving DecidableEq, Repr

/-- A read of the host: its first dword, and the byte enables of each dword it covers (R631). -/
structure ReadReq where
  at_ : HostAddr
  bes : List Nat
  deriving DecidableEq, Repr

/-- What a block reports of the condition of a kind C source (R552): that it holds or not, or, for F004, what its supply monitor
sees of a rail (R661). -/
inductive Held where
  | is (b : Bool)
  /-- A rail, VDD_IO or not, has lain `dev` thousandths off its nominal value for `us` microseconds. -/
  | rail (vddIo : Bool) (dev us : Nat)
  deriving DecidableEq, Repr

/-- An output pin, or a lane of one (R662, R670). -/
inductive Pin where
  /-- Lane i of the port of a slot (R79). -/
  | lane (p i : Nat)
  | ridge (j : Nat)
  | pcie
  | arbHb
  | arbStat
  /-- PPS_OUT[2:0] and PPS_OUT3_WHIP_OUT. -/
  | pps (n : Nat)
  | errN
  | alertN
  | tdo
  | flashCsN
  | flashSck
  /-- Of memory channel Qc. -/
  | qRstN (c : Nat)
  | qCfgN (c : Nat)
  | qCk (c : Nat)
  deriving DecidableEq, Repr

/-- What an output shows (R662). -/
inductive PinLevel where
  | low | high
  /-- Not driven: high impedance. -/
  | released
  /-- Electrical idle of a transmit pair. -/
  | idle
  | code (n : Nat)
  /-- What the block that drives it sends there; inverted, on a lane whose TX_INV says so. -/
  | data (inv : Bool)
  deriving DecidableEq, Repr

/-- What the outputs of a boundary-scan instruction show (R647). -/
inductive Drive where
  /-- The device's own outputs. -/
  | own
  /-- The boundary register's cells. -/
  | cells (l : List Bool)
  /-- High impedance. -/
  | floating
  deriving DecidableEq, Repr

/-- A part of the content of a shingle, and of the covered state of a digest source (R494, R513). -/
inductive Shingle where
  /-- The RWS settings of one run of 4,096 bytes of the register space that do not stand at their reset values. -/
  | words (chunk : Nat) (l : List (Nat × Word))
  /-- The running state of a coach but for its key slots. -/
  | coach (c : Nat) (v : CoachDyn)
  /-- The key slots of a coach. -/
  | slots (c : Nat) (a b : Option Slot)
  | ck (i : Nat) (k : Option (BitVec 256))
  /-- The probe slot of an Inbound pipe. -/
  | probe (d : Nat) (v : Option Probe)
  /-- Runs of a Dray's on-die classification state: position states, generation tags, overflow store, learn cache, move records and
  Bloom filters by run of their keys, and the migration steps (R317). -/
  | pos (d run : Nat) (l : Tab Nat)
  | gen (d run : Nat) (l : Tab Nat)
  | ovf (d run : Nat) (l : Tab OvfEntry)
  | cache (d run : Nat) (l : Tab CacheLine)
  | moves (d run : Nat) (l : Tab MoveRec)
  | bloom (d run : Nat) (l : Tab Nat)
  | steps (d : Nat) (l : List MigStep)
  | line (chan a : Nat) (v : BitVec 240)
  | tb (n : Nat) (v : TimeBase)
  | floor (f : Nat)
  | fill (q : Nat) (v : Option (Int × Nat))
  /-- Entries of an egress queue, units of a relay queue and units on their way from a pipe to a queue, without their bytes. -/
  | ledger (q : Nat) (l : List QEntry)
  | relay (d : Nat) (l : List Pkt)
  | toPush (p : Nat) (l : List Pkt)
  /-- Cells of units that have left their queue. -/
  | cells (l : List (Nat × Nat × Nat))
  /-- The derivation queue, and the requests that wait for a key. -/
  | drv (l wait : List DrvReq)
  | beat (n : Nat)
  /-- The batch store: the open batch and the sealed ones. -/
  | batch (l : List Entry) (sealed : List Batch)
  /-- Key slots or CK entries as the Ridge carries them: ciphertext and tag (R513, R534). -/
  | sealed (b : Bytes)
  deriving DecidableEq, Repr

/-- A shingle as the COPY channel carries it (R513, R514): its number, the boundary it was taken at, its place in the pass and the
number of shingles of the pass, and its content. -/
structure CopyItem where
  num   : Nat
  at_   : Nat
  ix    : Nat
  total : Nat
  parts : List Shingle
  deriving DecidableEq, Repr

/-- What the COPY channel brings in a beat (R513, R514). -/
structure CopyMsg where
  /-- Beat of the change list, and the list: shingle numbers and CRC words the active gives. -/
  beat    : Nat
  changes : List (Nat × Word)
  /-- The list was longer than the channel: the beat counts as lost (log entry 72). -/
  tooLong : Bool
  /-- Shingles held whole. -/
  items   : List CopyItem
  /-- The channel's content of the beat was lost (R535). -/
  lost    : Bool
  deriving DecidableEq, Repr

/-- What the device handed out in the last command. -/
inductive Out where
  /-- An MSI-X message of a vector (R636). -/
  | msix (v : Nat)
  /-- Data of a host read (R632). -/
  | rdata (off : Nat) (v : Word)
  /-- The item of a configuration read, or configuration request retry status (R628, R629). -/
  | cfg (v : Word)
  | cfgRetry
  /-- An SMBus Block Read's bytes, the byte count first, and the PEC of a master that reads one byte more (R646). -/
  | smb (b : Bytes) (pec : Byte)
  /-- A JTAG scan's data out (R647, R649). -/
  | tdo (v : BitVec 64)
  /-- A table-memory line read by debug (R370). -/
  | tdoLine (v : BitVec 288)
  /-- DMA record written to host memory (R371, R372). -/
  | dma (addr : Nat) (b : Bytes)
  /-- A KEY-channel message sent (R275, R534). -/
  | keyMsg (b : Bytes)
  /-- The boundary record sent on the RECORD channel (R482, R490). -/
  | record (b : Bytes)
  /-- The digest message sent on the DIGEST channel (R490, R495). -/
  | digest (b : Bytes)
  /-- What the COMMAND channel carries to the partner (R491). -/
  | commands (l : List PairCmd)
  /-- What the COPY channel carries to the partner (R513, R514). -/
  | copy (m : CopyMsg)
  deriving DecidableEq, Repr

/-- What the frames of a beat carry in the channels with a layout (R533, R534). -/
structure RidgeTx where
  digest  : Bytes
  key     : Bytes
  command : Bytes
  record  : Bytes
  copy    : Bytes
  deriving DecidableEq, Repr

/-- What the frames of a beat carry when no channel but KEY has anything (R531). -/
def RidgeTx.idle : RidgeTx := { digest := [], key := [], command := [], record := [], copy := [] }

/-- The one-time-programmable memory before anything is written to it (R240; log entry 5). -/
def Otp.blank : Otp :=
  { serial := 0, pufHelper := [], pufCheck := 0, vendorHash := 0, caHash := 0, cert := [], lcOwner := false,
    lcReturn := false, epochs := 0, ownerHash := [], unfit := [] }

/-- Pin levels before anything is presented: as the pull resistors leave them (R672; log entry 5). -/
def BoundaryIn.quiet : BoundaryIn :=
  { role := false, fence := true, roleNs := 1000, fenceNs := 1000, temp := 0, phase := [], badDomains := [], straps := 0 }

/-- A port nothing has touched. -/
def PortDyn.init : PortDyn :=
  { pcs := false, fec := false, sig := false, sigLost := true, lanes := [], ltDone := false, prevUp := false, prevPhy := 0,
    linkUp := false, count := 0, phNow := 0, phPrev := 0, phUse := 0, freeAt := 0 }

/-- A source no event has reached. -/
def SrcDyn.init : SrcDyn :=
  { open_ := false, winStart := 0, winCnt := 0, severe := false, errh := false, lastSev := 0, cond := false,
    lastInt := false }

end Sys2Proof
end

