-- ==== Sys2Proof/Syntax.lean ====
section
/-! DEFINITION. The commands of the FJX3200: one constructor per row of spec/opcode_table.json. The operands are what
the row's rule takes from outside the device; `time` is the CCLK offset in the beat under way at which a row that the
manual ties to a CCLK happens (R412). -/

namespace Sys2Proof

/-- The commands. Each cites the rule of its row. -/
inductive Instr where
  /-- POWER_ON_RESET (R593). -/
  | powerOnReset
  /-- CHIP_RESET (R593). -/
  | chipReset (lowNs : Nat)
  /-- PLL_LOCK_LOSS (R22). -/
  | pllLockLoss
  /-- PUF_ATTEMPT (R241). -/
  | pufAttempt (errBits : Nat) (p : BitVec 256)
  /-- BOOT_STAGE_COMPLETE (R606). -/
  | bootStageComplete (stage : Nat) (ok : Bool) (info : Word)
  /-- TBM_CHANNEL_TRAINING (R365). -/
  | tbmChannelTraining (c failStep margin : Nat)
  /-- BEAT0_COMMIT (R610). -/
  | beat0Commit (us : Nat)
  /-- BEAT_BOUNDARY (R40). -/
  | beatBoundary (i : BoundaryIn)
  /-- GRACE_END (R215). -/
  | graceEnd (c : Nat)
  /-- TIMED_ADVANCE (R214). -/
  | timedAdvance (c : Nat)
  /-- PN_SOFT_LIMIT (R214). -/
  | pnSoftLimit (c : Nat)
  /-- PN_HARD_LIMIT (R225). -/
  | pnHardLimit (c : Nat)
  /-- SUPERVISION_EXPIRY (R453). -/
  | supervisionExpiry (n : Nat)
  /-- THROTTLE_END (R618). -/
  | throttleEnd
  /-- SYNC_COMPLETE (R515). -/
  | syncComplete
  /-- MASK_REDRAW (R254). -/
  | maskRedraw
  /-- MASK_SWEEP_END (R254). -/
  | maskSweepEnd
  /-- KNOWN_ANSWER_TEST (R260). -/
  | knownAnswerTest (pass : Bool)
  /-- TRNG_HEALTH_FAIL (R256). -/
  | trngHealthFail
  /-- TRNG_RECOVER (R256). -/
  | trngRecover
  /-- BEAT_ALARM (R71). -/
  | beatAlarm
  /-- ARRIVAL_ASSIGNMENT (R25). -/
  | arrivalAssignment (port offset phi : Nat) (frame : Bytes)
  /-- PORT_PHY_CHANGE (R106). -/
  | portPhyChange (port : Nat) (pcs : Bool) (fec : FecIn) (sig : Bool)
  /-- LINK_TRAINING_DONE (R78). -/
  | linkTrainingDone (port : Nat)
  /-- OUTBOUND_PROCESS (R87). -/
  | outboundProcess (d : Nat) (errs : List (Nat × PnErr))
  /-- INBOUND_CIPHER_START (R142). -/
  | inboundCipherStart (port time : Nat)
  /-- FRAME_VERDICT (R143). -/
  | frameVerdict (port time : Nat) (pnErr : Bool)
  /-- PROBE_EXPIRY (R224). -/
  | probeExpiry (pipe : Nat)
  /-- SUPERFRAME_SEND (R159). -/
  | superframeSend (port time : Nat) (err : Option PnErr)
  /-- ALIGNER_POSITION (R178). -/
  | alignerPosition (port offset phi pos : Nat) (ctrl : Bool) (hdr : Bytes)
  /-- SUPERFRAME_RECEIVE (R181). -/
  | superframeReceive (port time : Nat) (pnErr : Bool)
  /-- SUPERFRAME_VERDICT (R186). -/
  | superframeVerdict (port time : Nat)
  /-- RELAY_REENCRYPT_START (R103). -/
  | relayReencryptStart (d time : Nat)
  /-- LOFT_PUSH (R391). -/
  | loftPush (pipe time : Nat)
  /-- GAP_MARKER_REMOVE (R396). -/
  | gapMarkerRemove (q time : Nat)
  /-- TRANSMISSION_START (R33). -/
  | transmissionStart (slot time : Nat)
  /-- RELEASE_DROP (R107). -/
  | releaseDrop (slot time : Nat)
  /-- UNIT_TRANSMIT_COMPLETE (R385). -/
  | unitTransmitComplete (slot time : Nat)
  /-- LOFT_UNDERRUN (R401). -/
  | loftUnderrun (slot time : Nat)
  /-- MIGRATION_STEP (R323). -/
  | migrationStep (d : Nat)
  /-- LINE_CHECK_FAIL (R362). -/
  | lineCheckFail (c line : Nat) (uncorrectable : Bool)
  /-- CALIBRATION_READ (R368). -/
  | calibrationRead (c eye : Nat)
  /-- CALIBRATION_ABANDON (R369). -/
  | calibrationAbandon (c : Nat)
  /-- DERIVATION_RUN (R211). -/
  | derivationRun
  /-- FLOOR_TAKE_EFFECT (R220). -/
  | floorTakeEffect
  /-- CK_COMMIT_WRITE_DONE (R280). -/
  | ckCommitWriteDone (ok : Bool)
  /-- RWS_WRITE (R43). -/
  | rwsWrite (off : Nat) (val : Word)
  /-- BATCH_SEAL (R45). -/
  | batchSeal (mode : Bool)
  /-- BATCH_DISCARD (R50). -/
  | batchDiscard
  /-- REGISTER_WRITE (R13). -/
  | registerWrite (off : HostAddr) (val : List Word) (be : List Nat)
  /-- CLEARING_READ (R13). -/
  | clearingRead (off : ReadReq)
  /-- COHERENT_LO_READ (R634). -/
  | coherentLoRead (off : ReadReq)
  /-- PEND_CLEAR (R559). -/
  | pendClear (src : Nat)
  /-- ALERT_ACK (R561). -/
  | alertAck
  /-- FAULT_INJECT (R566). -/
  | faultInject (src sev : Nat)
  /-- FAULT_EVENT (R555). -/
  | faultEvent (src sev n : Nat) (holds : Held)
  /-- BLOCK_RESET (R562). -/
  | blockReset (src : Nat)
  /-- CHIP_RESET_REACTION (R563). -/
  | chipResetReaction
  /-- FAULT_WINDOW_CLOSE (R555). -/
  | faultWindowClose (src : Nat)
  /-- MSIX_UNMASK (R636). -/
  | msixUnmask (v : Nat)
  /-- WHIP_FIRE (R567). -/
  | whipFire
  /-- WHIP_IN_EDGE (R573). -/
  | whipInEdge (lowNs time : Nat)
  /-- WHIP_TIME_ARM (R589). -/
  | whipTimeArm (val : Word)
  /-- WHIP_TIME_TRIGGER (R567). -/
  | whipTimeTrigger
  /-- WHIP_BEAT_TRIGGER (R567). -/
  | whipBeatTrigger
  /-- WHIP_OUT_FALL (R572). -/
  | whipOutFall (time : Nat)
  /-- PMC_COUNTER_WRAP (R577). -/
  | pmcCounterWrap (b k n : Nat)
  /-- PMC_COUNTER_WRITE (R578). -/
  | pmcCounterWrite (b k : Nat) (hi : Bool) (val : Word)
  /-- TIME_SNAPSHOT (R466). -/
  | timeSnapshot
  /-- PPS_INPUT_EDGE (R451). -/
  | ppsInputEdge (i time phi heldNs : Nat) (falling : Bool)
  /-- PPS_OUTPUT_RISE (R455). -/
  | ppsOutputRise (o time : Nat)
  /-- PPS_OUTPUT_FALL (R455). -/
  | ppsOutputFall (o time : Nat)
  /-- STAGE_KEY_DELIVERY (R271). -/
  | stageKeyDelivery (w : Nat)
  /-- CK_DELIVERY (R271). -/
  | ckDelivery (w : Nat)
  /-- CK_ERASE (R271). -/
  | ckErase (w : Nat)
  /-- KEY_WINDOW_WRITE (R643). -/
  | keyWindowWrite (off : Nat) (val : Word) (be : Nat)
  /-- KEY_JOB_START (R267). -/
  | keyJobStart
  /-- KEY_JOB_END (R272). -/
  | keyJobEnd
  /-- KEK_AGREEMENT (R264). -/
  | kekAgreement (k : Nat)
  /-- ATTESTATION (R265). -/
  | attestation
  /-- PK_OPERATION_DONE (R263). -/
  | pkOperationDone
  /-- KEK_CHECK_VALUE (R264). -/
  | kekCheckValue (k : Nat)
  /-- LC_CLAIM (R249). -/
  | lcClaim (otpOk : OtpEnd)
  /-- LC_TRANSFER (R249). -/
  | lcTransfer (otpOk : OtpEnd)
  /-- LC_RETURN (R249). -/
  | lcReturn (otpOk : OtpEnd)
  /-- PAIR_LINK_KEY_EXCHANGE (R275). -/
  | pairLinkKeyExchange
  /-- PAIR_LINK_KEY_AGREED (R275). -/
  | pairLinkKeyAgreed
  /-- RIDGE_FRAME_RECEIVE (R538): the code-group position of the marker, the code groups by which the elastic buffer has moved
  (`arrive`), the code groups before the marker (`cgErr`), and those of the marker, the header and the two segments. -/
  | ridgeFrameReceive (j pos : Nat) (arrive : Int) (cgErr marker hdr segA segB : List CodeGroup)
  /-- RIDGE_CRC_HUNT_START (R538). -/
  | ridgeCrcHuntStart (j : Nat)
  /-- RIDGE_HUNT_TIMEOUT (R538). -/
  | ridgeHuntTimeout (j : Nat)
  /-- RIDGE_LANE_TIMEOUT (R538). -/
  | ridgeLaneTimeout (j : Nat)
  /-- PARTNER_ABSENT (R540). -/
  | partnerAbsent
  /-- PRBS_INJECT (R543). -/
  | prbsInject (j : Nat)
  /-- BOUNDARY_RECORD_RECEIVE (R482). -/
  | boundaryRecordReceive (rec : Bytes)
  /-- DIGEST_MESSAGE_RECEIVE (R495). -/
  | digestMessageReceive (msg : Bytes) (arrive : Int)
  /-- COMMAND_RECEIVE (R491). -/
  | commandReceive (cmds : List PairCmd)
  /-- KEY_CHANNEL_RECEIVE (R274). -/
  | keyChannelReceive (beat : Nat) (msg : Bytes)
  /-- COPY_RECEIVE (R514). -/
  | copyReceive (m : CopyMsg)
  /-- ARB_FENCE_RISE (R503). -/
  | arbFenceRise (time : FenceEdge)
  /-- DOMAIN_RAMP_DONE (R614). -/
  | domainRampDone (x : Nat)
  /-- DOMAIN_DRAIN_DONE (R615). -/
  | domainDrainDone (x : Nat)
  /-- FLASH_READ (R597). -/
  | flashRead (len : Nat)
  /-- FLASH_ERASE (R597). -/
  | flashErase
  /-- FLASH_PROGRAM (R597). -/
  | flashProgram (len : Nat)
  /-- FLASH_CHECK (R611). -/
  | flashCheck
  /-- FLASH_OPERATION_DONE (R623). -/
  | flashOperationDone (ok : Bool)
  /-- TBM_DMA_START (R371). -/
  | tbmDmaStart
  /-- TBM_DMA_DONE (R379). -/
  | tbmDmaDone (ok : Bool)
  /-- TBM_ERROR_INJECT (R373). -/
  | tbmErrorInject (c bit : Nat)
  /-- PERST_RESET (R630). -/
  | perstReset
  /-- FUNCTION_LEVEL_RESET (R630). -/
  | functionLevelReset
  /-- PCIE_D3HOT (R630). -/
  | pcieD3hot
  /-- SMB_GLB_ID (R646). -/
  | smbGlbId
  /-- SMB_BOOT_STAT (R646). -/
  | smbBootStat
  /-- SMB_BEAT_STAT (R646). -/
  | smbBeatStat
  /-- SMB_BEAT_COUNT (R646). -/
  | smbBeatCount
  /-- SMB_PAIR_STAT (R646). -/
  | smbPairStat
  /-- SMB_PST_STAT (R646). -/
  | smbPstStat
  /-- SMB_PST_FIRST (R646). -/
  | smbPstFirst
  /-- SMB_PST_RST_CAUSE (R646). -/
  | smbPstRstCause
  /-- SMB_PWR_TEMP (R646). -/
  | smbPwrTemp
  /-- SMB_PWR_THERM (R646). -/
  | smbPwrTherm
  /-- SMB_TBM_STAT (R646). -/
  | smbTbmStat
  /-- SMB_RDG_STAT (R646). -/
  | smbRdgStat
  /-- SMB_VLT_STAT (R646). -/
  | smbVltStat
  /-- SMB_SERIAL (R646). -/
  | smbSerial
  /-- SMB_BOOT_IMG_SEQ (R646). -/
  | smbBootImgSeq
  /-- SMB_OTHER_TRANSACTION (R646): a Block Read with another command code, or any other. -/
  | smbOtherTransaction (blockRead : Option Nat)
  /-- JTAG_TEST_LOGIC_RESET (R647). -/
  | jtagTestLogicReset
  /-- BYPASS (R647). -/
  | bypass
  /-- IDCODE (R647). -/
  | idcode
  /-- SAMPLE_PRELOAD (R647). -/
  | samplePreload (preload : List Bool)
  /-- EXTEST (R648). -/
  | extest
  /-- EXTEST_PULSE (R648). -/
  | extestPulse
  /-- EXTEST_TRAIN (R648). -/
  | extestTrain
  /-- HIGHZ (R648). -/
  | highz
  /-- CLAMP (R648). -/
  | clamp
  /-- DBG_REG (R649). -/
  | dbgReg (off : Nat) (write : Bool) (data : Word)
  /-- DBG_TBL (R370). -/
  | dbgTbl (c line : Nat) (write : Bool) (inject : Option Nat) (data : BitVec 288)
  /-- POWER_ON_HOLD (R661). -/
  | powerOnHold
  /-- FLOOR_WRITE_DONE (R220). -/
  | floorWriteDone (ok : Bool)
  /-- PRBS_CHECKER (R542). -/
  | prbsChecker (j : Nat) (rx : List Bool)
  /-- CONTINUOUS_INJECTION (R543). -/
  | continuousInjection (j n : Nat)
  /-- UNOCCUPIED_READ (R644). -/
  | unoccupiedRead (off : ReadReq)
  /-- PCIE_LINK_CHANGE (R629). -/
  | pcieLinkChange (up : Bool) (speed width : Nat) (bme msixEn funcMask : Bool)
  deriving DecidableEq, Repr

end Sys2Proof
end

