-- ==== Sys2Proof/WellFormed.lean ====
section
/-! DEFINITION. Well-formed commands: every operand lies in the range its rule gives it. A command whose index names nothing
the device has changes nothing, so no meaning rests on this. -/

namespace Sys2Proof

/-- A number below a bound. -/
def lt (v n : Nat) : Bool := decide (v < n)

/-- A coach number; coach 0 stands for none (R201, R202). -/
def coachOk (c : Nat) : Bool := decide (1 ≤ c) && decide (c < 65536)

/-- A line slot of R386. -/
def lineSlot (p : Nat) : Bool := decide (32 ≤ p) && decide (p < 64)

/-- A stage of the start sequence that a completion ends (R606). -/
def stageOk (s : Nat) : Bool := decide (1 ≤ s) && decide (s ≤ 6)

/-- A dword offset in BAR0 (R628, R631). -/
def dwordOk (off : Nat) : Bool := decide (off < 2 ^ 24) && off % 4 == 0

/-- A request's address: a dword of BAR0 or of BAR2, or an item of the configuration space (R628, R631). -/
def addrOk : HostAddr → Bool
  | .bar0 off => dwordOk off
  | .bar2 off => lt off (2 ^ 16) && off % 4 == 0
  | .cfg (.bar i) => lt i 6
  | .cfg (.cap i) => lt i 5
  | .cfg _ => true

/-- A read covers at least one dword (R631). -/
def readOk (r : ReadReq) : Bool := addrOk r.at_ && !r.bes.isEmpty && r.bes.all fun b => lt b 16

/-- A domain that the host may switch (R612). -/
def domainOk (x : Nat) : Bool := (decide (5 ≤ x) && decide (x ≤ 21)) || (decide (30 ≤ x) && decide (x ≤ 33))

/-- A link width (R629); 0 while the link is down. -/
def widthOk (w : Nat) : Bool := w == 0 || w == 1 || w == 2 || w == 4

/-- What the pins present at a boundary: phases of port slots, and domains (R448, R614). -/
def pinsOk (i : BoundaryIn) : Bool :=
  i.phase.all (fun e => lt e.1 64 && lt e.2 4) && i.badDomains.all domainOk && lt i.straps 4

/-- The operands of a command lie in their ranges. -/
def wellFormed : Instr → Bool
  | .powerOnReset => true
  | .chipReset _ => true
  | .pllLockLoss => true
  | .pufAttempt _ _ => true
  | .bootStageComplete stage _ _ => stageOk stage
  | .tbmChannelTraining c _ margin => lt c 8 && lt margin 256
  | .beat0Commit _ => true
  | .beatBoundary i => pinsOk i
  | .graceEnd c => coachOk c
  | .timedAdvance c => coachOk c
  | .pnSoftLimit c => coachOk c
  | .pnHardLimit c => coachOk c
  | .supervisionExpiry n => lt n 4
  | .throttleEnd => true
  | .syncComplete => true
  | .maskRedraw => true
  | .maskSweepEnd => true
  | .knownAnswerTest _ => true
  | .trngHealthFail => true
  | .trngRecover => true
  | .beatAlarm => true
  | .arrivalAssignment port offset phi frame => lt port 64 && lt offset 1200 && lt phi 4 && !frame.isEmpty
  | .portPhyChange port _ _ _ => lt port 64
  | .linkTrainingDone port => lt port 64
  | .outboundProcess k errs => lt k 4 && errs.all fun e => coachOk e.1
  | .inboundCipherStart port time => lineSlot port && lt time 1200
  | .frameVerdict port time _ => lineSlot port && lt time 1200
  | .probeExpiry pipe => lt pipe 4
  | .superframeSend port time _ => lt port 32 && lt time 1200
  | .alignerPosition port offset phi _ _ _ => lt port 32 && lt offset 1200 && lt phi 4
  | .superframeReceive port time _ => lt port 32 && lt time 1200
  | .superframeVerdict port time => lt port 32 && lt time 1200
  | .relayReencryptStart k time => lt k 4 && lt time 1200
  | .loftPush pipe time => lt pipe 8 && lt time 1200
  | .gapMarkerRemove q time => lt q 512 && lt time 1200
  | .transmissionStart slot time => lt slot 64 && lt time 1200
  | .releaseDrop slot time => lt slot 64 && lt time 1200
  | .unitTransmitComplete slot time => lt slot 64 && lt time 1200
  | .loftUnderrun slot time => lt slot 64 && lt time 1200
  | .migrationStep k => lt k 4
  | .lineCheckFail c line _ => lt c 8 && lt line (2 ^ 22)
  | .calibrationRead c eye => lt c 8 && lt eye 256
  | .calibrationAbandon c => lt c 8
  | .derivationRun => true
  | .floorTakeEffect => true
  | .ckCommitWriteDone _ => true
  | .rwsWrite off _ => dwordOk off
  | .batchSeal _ => true
  | .batchDiscard => true
  | .registerWrite off val be => addrOk off && !val.isEmpty && val.length == be.length && be.all fun b => lt b 16
  | .clearingRead off => readOk off
  | .coherentLoRead off => readOk off
  | .pendClear src => lt src 190
  | .alertAck => true
  | .faultInject src sev => lt src 256 && lt sev 4
  | .faultEvent src sev _ _ => lt src 190 && lt sev 3
  | .blockReset src => lt src 190
  | .chipResetReaction => true
  | .faultWindowClose src => lt src 190
  | .msixUnmask v => lt v 64
  | .whipFire => true
  | .whipInEdge _ time => lt time 1200
  | .whipTimeArm _ => true
  | .whipTimeTrigger => true
  | .whipBeatTrigger => true
  | .whipOutFall time => lt time 1200
  | .pmcCounterWrap b k _ => lt b 20 && lt k 8
  | .pmcCounterWrite b k _ _ => lt b 20 && lt k 8
  | .timeSnapshot => true
  | .ppsInputEdge i time phi _ _ => lt i 4 && lt time 1200 && lt phi 4
  | .ppsOutputRise o time => lt o 4 && lt time 1200
  | .ppsOutputFall o time => lt o 4 && lt time 1200
  | .stageKeyDelivery w => lt w 256
  | .ckDelivery w => lt w 256
  | .ckErase w => lt w 256
  | .keyWindowWrite off _ be => lt off (2 ^ 16) && off % 4 == 0 && lt be 16
  | .keyJobStart => true
  | .keyJobEnd => true
  | .kekAgreement k => lt k 16
  | .attestation => true
  | .pkOperationDone => true
  | .kekCheckValue k => lt k 16
  | .lcClaim _ => true
  | .lcTransfer _ => true
  | .lcReturn _ => true
  | .pairLinkKeyExchange => true
  | .pairLinkKeyAgreed => true
  | .ridgeFrameReceive j _ _ _ _ _ _ _ => lt j 16
  | .ridgeCrcHuntStart j => lt j 16
  | .ridgeHuntTimeout j => lt j 16
  | .ridgeLaneTimeout j => lt j 16
  | .partnerAbsent => true
  | .prbsInject j => lt j 16
  | .boundaryRecordReceive _ => true
  | .digestMessageReceive _ _ => true
  | .commandReceive _ => true
  | .keyChannelReceive _ _ => true
  | .copyReceive _ => true
  | .arbFenceRise e => lt e.time 1200
  | .domainRampDone x => domainOk x
  | .domainDrainDone x => domainOk x
  | .flashRead len => lt 0 len && lt len 257
  | .flashErase => true
  | .flashProgram len => lt 0 len && lt len 257
  | .flashCheck => true
  | .flashOperationDone _ => true
  | .tbmDmaStart => true
  | .tbmDmaDone _ => true
  | .tbmErrorInject c bit => lt c 8 && lt bit 72
  | .perstReset => true
  | .functionLevelReset => true
  | .pcieD3hot => true
  | .smbGlbId => true
  | .smbBootStat => true
  | .smbBeatStat => true
  | .smbBeatCount => true
  | .smbPairStat => true
  | .smbPstStat => true
  | .smbPstFirst => true
  | .smbPstRstCause => true
  | .smbPwrTemp => true
  | .smbPwrTherm => true
  | .smbTbmStat => true
  | .smbRdgStat => true
  | .smbVltStat => true
  | .smbSerial => true
  | .smbBootImgSeq => true
  | .smbOtherTransaction c => c.all fun c => decide (15 ≤ c) && lt c 256
  | .jtagTestLogicReset => true
  | .bypass => true
  | .idcode => true
  | .samplePreload _ => true
  | .extest => true
  | .extestPulse => true
  | .extestTrain => true
  | .highz => true
  | .clamp => true
  | .dbgReg off _ _ => dwordOk off
  | .dbgTbl c line _ _ _ => lt c 8 && lt line (2 ^ 22)
  | .powerOnHold => true
  | .floorWriteDone _ => true
  | .prbsChecker j _ => lt j 16
  | .continuousInjection j _ => lt j 16
  | .unoccupiedRead off => readOk off
  | .pcieLinkChange _ speed width _ _ _ => lt speed 5 && widthOk width

end Sys2Proof
end

