-- ==== Sys2Proof/Decode.lean ====
section
/-! DEFINITION. The commands that words of the opcode table spell. Its rows are events and accesses of a block and give no
bits, so no word spells one. -/

namespace Sys2Proof

/-- The command an instruction word spells: none, for the table gives no row an encoding. -/
def decodeTableWord (_nbits _w : Nat) : Option Instr := none

end Sys2Proof
end

