-- ==== Sys2Proof/Config.lean ====
section
/-! DEFINITION. What the manual leaves to each part or leaves open: constants and functions without a body, so that no
proof can see a value of one. -/

namespace Sys2Proof.Config

/-- The n-th draw of the random number generator (R253, R254, R275, R356) and the n-th value the manual leaves free. -/
opaque draw : Nat → BitVec 512

/-- The j-th choice that makes up the address permutation of draw k (R253). -/
opaque permChoice : Nat → Nat → Nat

/-- Bytes 56-63 of a key slot with a given content: its slot state and check code (R207). -/
opaque slotCheck : BitVec 448 → BitVec 64

/-- Initial stage of a coach; the image sets it in a place the manual does not name (R219). At least 1 by use. -/
opaque stageInit : Nat → Nat

/-- The power of two that the image gives STAGE_STEP, less 8, in a place the manual does not name; none where it gives none
(R220). -/
opaque stageStepLog : Option Nat

/-- The change records that take parts of the covered state from the content given first to the content given second, as bytes:
their layout is internal (R494). -/
opaque changeRecords : List Shingle → List Shingle → List (BitVec 8)

/-- The bytes of on-die state of a shingle with a given content, and what such bytes hold: their layout is internal (R513). -/
opaque onDieBytes : List Shingle → List (BitVec 8)
opaque onDieParts : Nat → List (BitVec 8) → List Shingle

/-- The byte that a received code group outside the code stands for (R525, R530). -/
opaque badGroup : BitVec 10 → BitVec 8

/-- The public key a certificate carries, when it parses as X.509 with the content of R262. -/
opaque certKey : List (BitVec 8) → Option (BitVec 384 × BitVec 384)

/-- The serial number a certificate carries (R262). -/
opaque certSerial : List (BitVec 8) → BitVec 64

/-- Whether a certificate verifies under the manufacturing CA key whose hash is given (R275). -/
opaque certVerifies : BitVec 384 → List (BitVec 8) → Bool

/-- Bytes of the SFDP table that the device reads of its flash: the manual does not number them (R595). -/
opaque sfdpBytes : Nat

/-- Bank of the first cell of a unit, by count of units pushed (R382). -/
opaque loftBank : Nat → Nat

/-- What a boundary scan samples, by count (R647). -/
opaque boundarySample : Nat → BitVec 64

/-- A line of the calibration region before a debug write, by channel and line (R370): its pattern is not stated. -/
opaque rawLine : Nat → BitVec 288

end Sys2Proof.Config
end

