-- ==== Sys2Proof/Machine/Parse.lean ====
section
/-! DEFINITION. What the pipes read in a frame: tags, EtherType, IP headers (R300) and PTP event messages (R458). -/

namespace Sys2Proof.Machine

/-- `n` bytes of a frame from offset `i`, as a number; bytes the frame does not hold count as zero. -/
def field (f : Bytes) (i n : Nat) : Nat := natOfBytes (((f.drop i).take n) ++ List.replicate (n - (f.drop i).length) 0#8)

/-- A tag's TPID (R300). -/
def isTpid (x : Nat) : Bool := x == 0x8100 || x == 0x88A8

/-- Offset of the EtherType after at most two tags (R300). -/
def etypeAt (f : Bytes) : Nat :=
  if isTpid (field f 12 2) then (if isTpid (field f 16 2) then 20 else 16) else 12

/-- PCP of the first tag after the source address, if there is one. -/
def pcpOf (f : Bytes) : Option Nat := if isTpid (field f 12 2) then some (field f 14 1 / 32) else none

/-- VID of the first tag; 0 when there is none. -/
def vidOf (f : Bytes) : Nat := if isTpid (field f 12 2) then field f 14 2 % 4096 else 0

/-- Kind of a unit (R300). -/
inductive Kind where
  | other | ipv4 | ipv6
  deriving DecidableEq, Repr

/-- The fields of R300. -/
structure Parsed where
  vid   : Nat
  pcp   : Option Nat
  etype : Nat
  after : Nat
  kind  : Kind
  dip   : Nat
  sip   : Nat
  dscp  : Nat
  proto : Nat
  dport : Nat
  sport : Nat
  da    : Nat
  deriving DecidableEq, Repr

/-- Parse a frame with its FCS, on a port whose PVID is given (R300). -/
def parse (frame : Bytes) (pvid : Nat) : Parsed :=
  let f := frame.take (frame.length - 4)
  let e := etypeAt f
  let et := field f e 2
  let h := e + 2
  let ihl := field f h 1 % 16
  let kind :=
    if et == 0x0800 && field f h 1 / 16 == 4 && 5 ≤ ihl && h + 4 * ihl ≤ f.length then Kind.ipv4
    else if et == 0x86DD && field f h 1 / 16 == 6 && h + 40 ≤ f.length then Kind.ipv6 else Kind.other
  let t := h + 4 * ihl
  let proto := match kind with | .ipv4 => field f (h + 9) 1 | .ipv6 => field f (h + 6) 1 | .other => 0
  let ports := kind == .ipv4 && (proto == 6 || proto == 17) && field f (h + 6) 2 % 8192 == 0 && t + 4 ≤ f.length
  { vid := if vidOf f == 0 then pvid else vidOf f, pcp := pcpOf f, etype := et, after := field f h 4, kind := kind,
    dip := match kind with | .ipv4 => field f (h + 16) 4 | .ipv6 => field f (h + 24) 16 | .other => 0,
    sip := if kind == .ipv4 then field f (h + 12) 4 else 0,
    dscp := match kind with
      | .ipv4 => field f (h + 1) 1 / 4
      | .ipv6 => field f h 2 / 64 % 64
      | .other => 0,
    proto := proto, dport := if ports then field f (t + 2) 2 else 0, sport := if ports then field f t 2 else 0,
    da := field f 0 6 }

/-- Where the PTP header of an event message starts, and whether it is over UDP (R458). -/
def ptpAt (frame : Bytes) : Option (Nat × Bool) :=
  let f := frame.take (frame.length - 4)
  let p := parse frame 0
  let e := etypeAt f
  let at_ :=
    if p.etype == 0x88F7 then some (e + 2, false)
    else if p.kind == .ipv4 && p.proto == 17 && p.dport == 319 && field f (e + 8) 2 % 16384 == 0 then
      some (e + 2 + 4 * (field f (e + 2) 1 % 16) + 8, true)
    else none
  match at_ with
  | none => none
  | some (h, udp) =>
    let len := field f (h + 2) 2
    if h + 34 ≤ f.length && field f h 1 % 16 ≤ 3 && field f (h + 1) 1 % 16 == 2 && 34 ≤ len && h + len ≤ f.length then
      some (h, udp)
    else none

/-- Replace bytes of a frame from offset `i`. -/
def putAt (f : Bytes) (i : Nat) (b : Bytes) : Bytes := f.take i ++ b ++ f.drop (i + b.length)

/-- Sum of the 16-bit words of a byte string, for the arithmetic of RFC 1624 (R463). -/
def sum16 : Bytes → Nat
  | a :: b :: r => a.toNat * 256 + b.toNat + sum16 r
  | [a] => a.toNat * 256
  | [] => 0

/-- Fold carries into 16 bits; the fuel covers any frame. -/
def fold16 : Nat → Nat → Nat
  | 0, s => s % 65536
  | n + 1, s => if s < 65536 then s else fold16 n (s % 65536 + s / 65536)

/-- HC' = ~(~HC + ~m + m') over the bytes changed (R463); `odd` when they start at an odd offset of the datagram. -/
def newChecksum (hc : Nat) (old new : Bytes) (odd : Bool) : Nat :=
  let pad := fun (b : Bytes) => if odd then 0#8 :: b else b
  0xFFFF - fold16 20 ((0xFFFF - hc) + sum16 ((pad old).map (~~~ ·)) + sum16 (pad new))

end Sys2Proof.Machine
end

