-- ==== Sys2Proof/Machine/RegMap.lean ====
section
/-! DEFINITION. The register map: every BAR0 register (R59-R657, block by block) and every word of the tables behind the
apertures (R640), with its place, the bits of each access type (R13) and its reset value. A table word's key is
table number x 2^28 + entry x 64 + word x 4, so that registers and table words share one sparse store (log entry 4). -/

namespace Sys2Proof.Machine

/-- The registers and table words, by the manual's names. -/
inductive Reg where
  | GLB_ID | GLB_SCRATCH | GLB_INT_SUM_LO | GLB_INT_SUM_HI | GLB_DBG | BOOT_STAT | BOOT_INT_STAT | BOOT_INT_EN
  | BOOT_IMG_SEQ | BOOT_TIME | BOOT_LIFE | BOOT_LIFE_WARN | BOOT_FL_INFO | BOOT_FL_ADDR | BOOT_FL_CTL | BOOT_FL_STAT
  | BOOT_DIGEST | BOOT_FL_DATA | VLT_STAT | VLT_PUF_STAT | VLT_INT_STAT | VLT_INT_EN | VLT_ENG_STAT | VLT_KEK_LIMIT
  | VLT_MASK_STAT | VLT_SERIAL_LO | VLT_SERIAL_HI | VLT_CK_CTL | VLT_CK_STAT | VLT_CK_SEQ | VLT_PK_CTL | VLT_PK_STAT
  | VLT_KCV_LO | VLT_KCV_HI | VLT_LC_CTL | VLT_LC_STAT | VLT_CERT_LEN | VLT_KEK | VLT_PK_IN | VLT_PK_OUT | VLT_LC_CMD
  | VLT_CERT | VLT_KW_STAT | BEAT_STAT | BEAT_PHASE | BEAT_COUNT_LO | BEAT_COUNT_HI | BEAT_SCHED | BEAT_APPLY_LEAD
  | BEAT_APPLY_LO | BEAT_APPLY_HI | BEAT_BATCH_CTL | BEAT_BATCH_STAT | BEAT_BATCH_BEAT_LO | BEAT_BATCH_BEAT_HI
  | BEAT_BATCH_DONE | BEAT_ALARM_LO | BEAT_ALARM_HI | BEAT_ALARM_CTL | BEAT_INT_STAT | BEAT_INT_EN | BEAT_DET_CAUSE
  | BEAT_DET_VOID_LO | BEAT_DET_VOID_HI | BEAT_DLY_800 | BEAT_DLY_400 | BEAT_DLY_200 | BEAT_DLY_100 | DRY_STAT
  | DRY_GROUP | DRY_INT_STAT | DRY_INT_EN | DRY_OB_PEAK | DRY_IB_PEAK | DRY_CPORT_CTL | DRY_CPORT_STAT
  | DRY_LPORT_CTL | DRY_LPORT_THATCH | DRY_LPORT_STAT | DRY_CLANE | DRY_LLANE | DRY_CNT_LO | DRY_CNT_HI
  | CLS_INT_STAT | CLS_INT_EN | CLS_BUDGET | CLS_AGE | CLS_MOVE | CLS_FLUSH | CLS_EM_SEED0_LO | CLS_EM_SEED0_HI
  | CLS_EM_SEED1_LO | CLS_EM_SEED1_HI | CLS_BLOOM_SEED4 | CLS_BLOOM_SEED6 | CLS_PORT | CLS_PCPMAP | CLS_LIMIT
  | CLS_LCOUNT | CLS_DLEN4 | CLS_DLEN6 | CLS_OVF_STAT | CLS_CNT | TBM_STAT | TBM_INT_STAT | TBM_INT_EN | TBM_SCRUB
  | TBM_CAL | TBM_DMA_HADDR_LO | TBM_DMA_HADDR_HI | TBM_DMA_SRC | TBM_DMA_CNT | TBM_DMA_CTL | TBM_DMA_STAT | TBM_INJ
  | TBM_CH_CFG | TBM_CH_STAT | TBM_CH_CORR | TBM_CH_PEAK | TBM_CH_FAIL | TBM_CH_CAL_LATE | LOFT_STAT | LOFT_INT_STAT
  | LOFT_INT_EN | LOFT_SHARED_SIZE | LOFT_SHARED_USED | LOFT_RELAY_CFG | LOFT_RELAY_USED | LOFT_RELAY_DROP
  | LOFT_PORT_GUAR | LOFT_PORT_MAX | LOFT_PORT_CT | LOFT_PORT_USED | LOFT_PORT_STOMP | LOFT_QLIM_U | LOFT_QLIM_C
  | LOFT_QSTAT_U | LOFT_QSTAT_C | LOFT_QDROP | LOFT_QGAP | LOFT_QFLAG | GATE_INT_STAT | GATE_INT_EN | GATE_PORT_CFG
  | GATE_PORT_CYCLE | GATE_PORT_BASE_LO | GATE_PORT_BASE_HI | GATE_PORT_STAT | GATE_QSHP | GATE_QSHP_FILL
  | GATE_QOVERSIZE | TIM_STAT | TIM_INT_STAT | TIM_INT_EN | TIM_SNAP_CTL | TIM_SNAP_BEAT_LO | TIM_SNAP_BEAT_HI
  | TIM_TB_CFG | TIM_TB_INC_LO | TIM_TB_INC_HI | TIM_TB_ADJ_CTL | TIM_TB_ADJ_NS | TIM_TB_ADJ_SEC_LO
  | TIM_TB_ADJ_SEC_HI | TIM_TB_SUPV | TIM_TB_PERR | TIM_TB_SNAP_FRAC | TIM_TB_SNAP_NS | TIM_TB_SNAP_SEC_LO
  | TIM_TB_SNAP_SEC_HI | TIM_PPSI_CFG | TIM_PPSI_POS | TIM_PPSI_BEAT_LO | TIM_PPSI_BEAT_HI | TIM_PPSI_CAP_FRAC
  | TIM_PPSI_CAP_NS | TIM_PPSI_CAP_SEC_LO | TIM_PPSI_CAP_SEC_HI | TIM_PPSI_CNT | TIM_PPSO_CFG | TIM_PPSO_OFS
  | TIM_PPSO_STAT | TIM_PTP_PORT | TIM_PTP_CNT | PAIR_STAT | PAIR_INT_STAT | PAIR_INT_EN | PAIR_CFG | PAIR_SKEW
  | PAIR_SYNC_STAT | PAIR_GHOSTS | PAIR_DIG_DIFF | PAIR_DIFF_BEAT_LO | PAIR_DIFF_BEAT_HI | PAIR_CNT | RDG_STAT
  | RDG_INT_STAT | RDG_INT_EN | RDG_CFG | RDG_SKEW | RDG_LANE_CTL | RDG_LANE_STAT | RDG_LANE_CNT | PST_CFG | PST_STAT
  | PST_ALERT | PST_INJ | PST_FIRST | PST_FIRST_BEAT_LO | PST_FIRST_BEAT_HI | PST_RST_CAUSE | PST_PEND
  | PST_SRC_REACT | PST_SRC_WIN | PST_SRC_STAT | PST_SRC_CNT | WHP_CTL | WHP_CFG | WHP_STAT | WHP_INT_STAT
  | WHP_INT_EN | WHP_MISSED | WHP_FAULT | WHP_BEAT_LO | WHP_BEAT_HI | WHP_TM_CFG | WHP_TM_SEC_LO | WHP_TM_NS
  | WHP_REC | PMC_CYC_LO | PMC_CYC_HI | PMC_SNAP_CYC_LO | PMC_SNAP_CYC_HI | PMC_CNT_CFG | PMC_CNT_LO | PMC_CNT_HI
  | PMC_SNAP_LO | PMC_SNAP_HI | PMC_INT_STAT | PMC_INT_EN | PWR_INT_STAT | PWR_INT_EN | PWR_THERM | PWR_TEMP
  | PWR_THROTTLE_CNT | PWR_DOM_CTL_FIX | PWR_DOM_CTL_SW | PWR_DOM_CTL_RDG | PWR_DOM_CTL_TBM | PWR_DOM_CTL_LOFT
  | PWR_DOM_STAT | HST_PCIE_STAT | HST_INT_STAT | HST_INT_EN | HST_ACC_ERR | HST_ACC_ERR_ADDR | HST_APER_SEL
  | HST_SMB_STAT | HST_CNT | MSIX_ADDR_LO | MSIX_ADDR_HI | MSIX_DATA | MSIX_CTRL | MSIX_PEND | RXPORT_CTL
  | RXPORT_UNKNOWN_SC | RXPORT_BAD_TAG | RXPORT_RSV | THP_CTL | THP_STAT | THP_EVT | THP_EVT_EN | THP_CNT | THP_RSV
  | CO_CTL | CO_ROUTE | CO_SCI | CO_SOFT_LIM | CO_HARD_LIM | CO_ADV | CO_KEY | CO_STAGE | CO_STATE | CO_TXPN_LO
  | CO_TXPN_HI | CST_WIDE | CST_CNT | TCAM_KEY | TCAM_RESULT | TCAM_RSV | EMR_WORD | EMR_RSV | DRQ_WORD | DRQ_RSV
  | GCL_GATES | GCL_INTERVAL | POL_CIR | POL_CBS | POL_PIR | POL_PBS
  deriving DecidableEq, Repr

/-- One row of the map: byte offset or table key, repeats as (count, stride), and the bits of each access type. -/
structure RegRow where
  base : Nat
  dims : List (Nat × Nat)
  rw   : Nat
  rws  : Nat
  w1c  : Nat
  rc   : Nat
  wo   : Nat
  /-- Read-only bits that the configuration image sets (R601). -/
  img  : Nat
  /-- Reset value of the bits that the store holds; a field computed from the state has its reset there. -/
  rst  : Nat
  deriving DecidableEq, Repr

/-- The map, row by row; each line names the rule that gives the fields. -/
def Reg.row : Reg → RegRow
  | .GLB_ID => ⟨0, [], 0, 0, 0, 0, 0, 0, 0x3200a200⟩ -- R3
  | .GLB_SCRATCH => ⟨4, [], 0xffffffff, 0, 0, 0, 0, 0, 0⟩ -- R651
  | .GLB_INT_SUM_LO => ⟨8, [], 0, 0, 0, 0, 0, 0, 0⟩ -- R651
  | .GLB_INT_SUM_HI => ⟨0xc, [], 0, 0, 0, 0, 0, 0, 0⟩ -- R651
  | .GLB_DBG => ⟨0x10, [], 0, 0, 0, 0xffff, 0, 0, 0⟩ -- R651
  | .BOOT_STAT => ⟨0x10000, [], 0, 0, 0, 0, 0, 0, 0⟩ -- R620
  | .BOOT_INT_STAT => ⟨0x10004, [], 0, 0, 7, 0, 0, 0, 0⟩ -- R621
  | .BOOT_INT_EN => ⟨0x10008, [], 7, 0, 0, 0, 0, 0, 0⟩ -- R621
  | .BOOT_IMG_SEQ => ⟨0x1000c, [], 0, 0, 0, 0, 0, 0, 0⟩ -- R622
  | .BOOT_TIME => ⟨0x10010, [], 0, 0, 0, 0, 0, 0, 0⟩ -- R622
  | .BOOT_LIFE => ⟨0x10014, [], 0, 0, 0, 0, 0, 0, 0⟩ -- R622
  | .BOOT_LIFE_WARN => ⟨0x10018, [], 0, 0, 0, 0, 0, 0xffffffff, 0x15f90⟩ -- R622
  | .BOOT_FL_INFO => ⟨0x1001c, [], 0, 0, 0, 0, 0, 0, 0⟩ -- R622
  | .BOOT_FL_ADDR => ⟨0x10020, [], 0xffffffff, 0, 0, 0, 0, 0, 0⟩ -- R622
  | .BOOT_FL_CTL => ⟨0x10024, [], 0, 0, 0, 0, 0xffffffff, 0, 0⟩ -- R623
  | .BOOT_FL_STAT => ⟨0x10028, [], 0, 0, 0, 0, 0, 0, 0⟩ -- R623
  | .BOOT_DIGEST => ⟨0x10040, [(12, 4)], 0, 0, 0, 0, 0, 0, 0⟩ -- R622
  | .BOOT_FL_DATA => ⟨0x10100, [(64, 4)], 0xffffffff, 0, 0, 0, 0, 0, 0⟩ -- R622
  | .VLT_STAT => ⟨0x20000, [], 0, 0, 0, 0, 0, 0, 0⟩ -- R285
  | .VLT_PUF_STAT => ⟨0x20004, [], 0, 0, 0, 0, 0, 0, 0⟩ -- R286
  | .VLT_INT_STAT => ⟨0x20008, [], 0, 0, 0x3ff, 0, 0, 0, 0⟩ -- R287
  | .VLT_INT_EN => ⟨0x2000c, [], 0x3ff, 0, 0, 0, 0, 0, 0⟩ -- R287
  | .VLT_ENG_STAT => ⟨0x20010, [], 0, 0, 0, 0, 0, 0, 0⟩ -- R288
  | .VLT_KEK_LIMIT => ⟨0x20014, [], 0, 0, 0, 0, 0, 0x1ffff, 0x10000⟩ -- R289
  | .VLT_MASK_STAT => ⟨0x20018, [], 0, 0, 0, 0, 0, 0, 0⟩ -- R290
  | .VLT_SERIAL_LO => ⟨0x2001c, [], 0, 0, 0, 0, 0, 0, 0⟩ -- R291
  | .VLT_SERIAL_HI => ⟨0x20020, [], 0, 0, 0, 0, 0, 0, 0⟩ -- R291
  | .VLT_CK_CTL => ⟨0x20030, [], 0, 0x80000000, 0, 0, 0, 0, 0⟩ -- R292
  | .VLT_CK_STAT => ⟨0x20034, [], 0, 0, 0, 0, 0, 0, 0⟩ -- R293
  | .VLT_CK_SEQ => ⟨0x20038, [], 0, 0, 0, 0, 0, 0, 0⟩ -- R291
  | .VLT_PK_CTL => ⟨0x20040, [], 0, 0, 0, 0, 0xffffffff, 0, 0⟩ -- R294
  | .VLT_PK_STAT => ⟨0x20044, [], 0, 0, 0, 0, 0, 0, 0⟩ -- R295
  | .VLT_KCV_LO => ⟨0x20048, [], 0, 0, 0, 0, 0, 0, 0⟩ -- R291
  | .VLT_KCV_HI => ⟨0x2004c, [], 0, 0, 0, 0, 0, 0, 0⟩ -- R291
  | .VLT_LC_CTL => ⟨0x20050, [], 0, 0, 0, 0, 0x80000000, 0, 0⟩ -- R296
  | .VLT_LC_STAT => ⟨0x20054, [], 0, 0, 0, 0, 0, 0, 0⟩ -- R295
  | .VLT_CERT_LEN => ⟨0x20058, [], 0, 0, 0, 0, 0, 0, 0⟩ -- R297
  | .VLT_KEK => ⟨0x20100, [(16, 4)], 0, 0, 0, 0, 0, 0, 0⟩ -- R298
  | .VLT_PK_IN => ⟨0x20200, [(24, 4)], 0xffffffff, 0, 0, 0, 0, 0, 0⟩ -- R291
  | .VLT_PK_OUT => ⟨0x20280, [(24, 4)], 0, 0, 0, 0, 0, 0, 0⟩ -- R291
  | .VLT_LC_CMD => ⟨0x20300, [(64, 4)], 0xffffffff, 0, 0, 0, 0, 0, 0⟩ -- R291
  | .VLT_CERT => ⟨0x20800, [(256, 4)], 0, 0, 0, 0, 0, 0, 0⟩ -- R291
  | .VLT_KW_STAT => ⟨0x21000, [(256, 4)], 0, 0, 0, 0, 0, 0, 0⟩ -- R299
  | .BEAT_STAT => ⟨0x30000, [], 0, 0, 0, 0, 0, 0, 0⟩ -- R60
  | .BEAT_PHASE => ⟨0x30004, [], 0, 0, 0, 0, 0, 0, 0⟩ -- R61
  | .BEAT_COUNT_LO => ⟨0x30008, [], 0, 0, 0, 0, 0, 0, 0⟩ -- R62
  | .BEAT_COUNT_HI => ⟨0x3000c, [], 0, 0, 0, 0, 0, 0, 0⟩ -- R62
  | .BEAT_SCHED => ⟨0x30010, [], 0, 0x1f, 0, 0, 0, 0, 4⟩ -- R63
  | .BEAT_APPLY_LEAD => ⟨0x30014, [], 0xff, 0, 0, 0, 0, 0, 4⟩ -- R64
  | .BEAT_APPLY_LO => ⟨0x30018, [], 0xffffffff, 0, 0, 0, 0, 0, 0⟩ -- R65
  | .BEAT_APPLY_HI => ⟨0x3001c, [], 0xffffffff, 0, 0, 0, 0, 0, 0⟩ -- R65
  | .BEAT_BATCH_CTL => ⟨0x30020, [], 0, 0, 0, 0, 0xffffffff, 0, 0⟩ -- R66
  | .BEAT_BATCH_STAT => ⟨0x30024, [], 0, 0, 0, 0, 0, 0, 0⟩ -- R67
  | .BEAT_BATCH_BEAT_LO => ⟨0x30028, [], 0, 0, 0, 0, 0, 0, 0⟩ -- R68
  | .BEAT_BATCH_BEAT_HI => ⟨0x3002c, [], 0, 0, 0, 0, 0, 0, 0⟩ -- R68
  | .BEAT_BATCH_DONE => ⟨0x30030, [], 0, 0, 0, 0, 0, 0, 0⟩ -- R69
  | .BEAT_ALARM_LO => ⟨0x30040, [], 0xffffffff, 0, 0, 0, 0, 0, 0⟩ -- R70
  | .BEAT_ALARM_HI => ⟨0x30044, [], 0xffffffff, 0, 0, 0, 0, 0, 0⟩ -- R70
  | .BEAT_ALARM_CTL => ⟨0x30048, [], 1, 0, 0, 0, 0, 0, 0⟩ -- R71
  | .BEAT_INT_STAT => ⟨0x30050, [], 0, 0, 0xf, 0, 0, 0, 0⟩ -- R72
  | .BEAT_INT_EN => ⟨0x30054, [], 0xf, 0, 0, 0, 0, 0, 0⟩ -- R72
  | .BEAT_DET_CAUSE => ⟨0x30060, [], 0, 0, 0x1f, 0, 0, 0, 0⟩ -- R73
  | .BEAT_DET_VOID_LO => ⟨0x30064, [], 0, 0, 0, 0, 0, 0, 0⟩ -- R73
  | .BEAT_DET_VOID_HI => ⟨0x30068, [], 0, 0, 0, 0, 0, 0, 0⟩ -- R73
  | .BEAT_DLY_800 => ⟨0x30070, [], 0, 0, 0, 0, 0, 0, 0xe400f0⟩ -- R74
  | .BEAT_DLY_400 => ⟨0x30074, [], 0, 0, 0, 0, 0, 0, 0xf000fc⟩ -- R74
  | .BEAT_DLY_200 => ⟨0x30078, [], 0, 0, 0, 0, 0, 0, 0x1080108⟩ -- R74
  | .BEAT_DLY_100 => ⟨0x3007c, [], 0, 0, 0, 0, 0, 0, 0x1380120⟩ -- R74
  | .DRY_STAT => ⟨0x100000, [(4, 0x40000)], 0, 0, 0, 0, 0, 0, 0⟩ -- R110
  | .DRY_GROUP => ⟨0x100004, [(4, 0x40000)], 0, 0x303, 0, 0, 0, 0, 0⟩ -- R111
  | .DRY_INT_STAT => ⟨0x100010, [(4, 0x40000)], 0, 0, 7, 0, 0, 0, 0⟩ -- R112
  | .DRY_INT_EN => ⟨0x100014, [(4, 0x40000)], 7, 0, 0, 0, 0, 0, 0⟩ -- R112
  | .DRY_OB_PEAK => ⟨0x100020, [(4, 0x40000)], 0, 0, 0, 0x1fffffff, 0, 0, 0⟩ -- R113
  | .DRY_IB_PEAK => ⟨0x100024, [(4, 0x40000)], 0, 0, 0, 0x1fffffff, 0, 0, 0⟩ -- R113
  | .DRY_CPORT_CTL => ⟨0x100100, [(4, 0x40000), (8, 0x20)], 0, 0xf700ffff, 0, 0, 0, 0, 0⟩ -- R114
  | .DRY_CPORT_STAT => ⟨0x100104, [(4, 0x40000), (8, 0x20)], 0, 0, 0, 0, 0, 0, 0⟩ -- R115
  | .DRY_LPORT_CTL => ⟨0x100300, [(4, 0x40000), (8, 0x20)], 0, 0xff070000, 0, 0, 0, 0, 0⟩ -- R116
  | .DRY_LPORT_THATCH => ⟨0x100304, [(4, 0x40000), (8, 0x20)], 0, 0x1fffff, 0, 0, 0, 0, 0⟩ -- R117
  | .DRY_LPORT_STAT => ⟨0x100308, [(4, 0x40000), (8, 0x20)], 0, 0, 0, 0, 0, 0, 0⟩ -- R115
  | .DRY_CLANE => ⟨0x100500, [(4, 0x40000), (8, 4)], 0, 3, 0, 0, 0, 0, 0⟩ -- R118
  | .DRY_LLANE => ⟨0x100520, [(4, 0x40000), (8, 4)], 0, 3, 0, 0, 0, 0, 0⟩ -- R118
  | .DRY_CNT_LO => ⟨0x101000, [(4, 0x40000), (16, 0x100), (32, 8)], 0, 0, 0, 0, 0, 0, 0⟩ -- R119
  | .DRY_CNT_HI => ⟨0x101004, [(4, 0x40000), (16, 0x100), (32, 8)], 0, 0, 0, 0, 0, 0, 0⟩ -- R119
  | .CLS_INT_STAT => ⟨0x200000, [], 0, 0, 0x3f, 0, 0, 0, 0⟩ -- R336
  | .CLS_INT_EN => ⟨0x200004, [], 0x3f, 0, 0, 0, 0, 0, 0⟩ -- R336
  | .CLS_BUDGET => ⟨0x200008, [], 0, 0xfff, 0, 0, 0, 0, 0x208⟩ -- R337
  | .CLS_AGE => ⟨0x20000c, [], 0, 0x3ff, 0, 0, 0, 0, 0x11e⟩ -- R337
  | .CLS_MOVE => ⟨0x200010, [], 0, 0xffff, 0, 0, 0, 0, 0x400⟩ -- R337
  | .CLS_FLUSH => ⟨0x200014, [], 0, 0xf, 0, 0, 0, 0, 0⟩ -- R337
  | .CLS_EM_SEED0_LO => ⟨0x200020, [], 0, 0, 0, 0, 0, 0xffffffff, 0⟩ -- R338
  | .CLS_EM_SEED0_HI => ⟨0x200024, [], 0, 0, 0, 0, 0, 0x7ff, 0⟩ -- R338
  | .CLS_EM_SEED1_LO => ⟨0x200028, [], 0, 0, 0, 0, 0, 0xffffffff, 0⟩ -- R338
  | .CLS_EM_SEED1_HI => ⟨0x20002c, [], 0, 0, 0, 0, 0, 0x7ff, 0⟩ -- R338
  | .CLS_BLOOM_SEED4 => ⟨0x200030, [], 0, 0, 0, 0, 0, 0xffffffff, 0⟩ -- R338
  | .CLS_BLOOM_SEED6 => ⟨0x200034, [], 0, 0, 0, 0, 0, 0xffffffff, 0⟩ -- R338
  | .CLS_PORT => ⟨0x200100, [(32, 4)], 0, 0x8ff80fff, 0, 0, 0, 0, 1⟩ -- R339
  | .CLS_PCPMAP => ⟨0x200180, [(32, 4)], 0, 0xffffff, 0, 0, 0, 0, 0xfac688⟩ -- R340
  | .CLS_LIMIT => ⟨0x200200, [(32, 4)], 0, 0x7fffff, 0, 0, 0, 0, 0x40000⟩ -- R341
  | .CLS_LCOUNT => ⟨0x200280, [(32, 4)], 0, 0, 0, 0, 0, 0, 0⟩ -- R341
  | .CLS_DLEN4 => ⟨0x200300, [(8, 4)], 0, 0, 0, 0, 0, 0xffffffff, 0⟩ -- R342
  | .CLS_DLEN6 => ⟨0x200320, [(8, 4)], 0, 0, 0, 0, 0, 0xffffffff, 0⟩ -- R342
  | .CLS_OVF_STAT => ⟨0x200400, [(4, 4)], 0, 0, 0, 0, 0, 0, 0⟩ -- R343
  | .CLS_CNT => ⟨0x201000, [(4, 0x80), (32, 4)], 0, 0, 0, 0xffffffff, 0, 0, 0⟩ -- R344
  | .TBM_STAT => ⟨0x280000, [], 0, 0, 0, 0, 0, 0, 0⟩ -- R375
  | .TBM_INT_STAT => ⟨0x280004, [], 0, 0, 0xf, 0, 0, 0, 0⟩ -- R376
  | .TBM_INT_EN => ⟨0x280008, [], 0xf, 0, 0, 0, 0, 0, 0⟩ -- R376
  | .TBM_SCRUB => ⟨0x280010, [], 0xf, 0, 0, 0, 0, 0, 1⟩ -- R377
  | .TBM_CAL => ⟨0x280014, [], 0x1f, 0, 0, 0, 0, 0, 0x10⟩ -- R377
  | .TBM_DMA_HADDR_LO => ⟨0x280020, [], 0xffffffe0, 0, 0, 0, 0, 0, 0⟩ -- R378
  | .TBM_DMA_HADDR_HI => ⟨0x280024, [], 0xffffffff, 0, 0, 0, 0, 0, 0⟩ -- R378
  | .TBM_DMA_SRC => ⟨0x280028, [], 0xf83fffff, 0, 0, 0, 0, 0, 0⟩ -- R378
  | .TBM_DMA_CNT => ⟨0x28002c, [], 0x1ffff, 0, 0, 0, 0, 0, 1⟩ -- R378
  | .TBM_DMA_CTL => ⟨0x280030, [], 0, 0, 0, 0, 0xffffffff, 0, 0⟩ -- R378
  | .TBM_DMA_STAT => ⟨0x280034, [], 0, 0, 0, 0, 0, 0, 0⟩ -- R379
  | .TBM_INJ => ⟨0x280038, [], 0, 0, 0, 0, 0xffffffff, 0, 0⟩ -- R379
  | .TBM_CH_CFG => ⟨0x280100, [(8, 0x20)], 0, 0, 0, 0, 0, 0xe03fffff, 0⟩ -- R380
  | .TBM_CH_STAT => ⟨0x280104, [(8, 0x20)], 0, 0, 0, 0, 0, 0, 0⟩ -- R380
  | .TBM_CH_CORR => ⟨0x280108, [(8, 0x20)], 0, 0, 0, 0xffffffff, 0, 0, 0⟩ -- R381
  | .TBM_CH_PEAK => ⟨0x28010c, [(8, 0x20)], 0, 0, 0, 0x7ff07ff, 0, 0, 0⟩ -- R381
  | .TBM_CH_FAIL => ⟨0x280110, [(8, 0x20)], 0, 0, 0, 0, 0, 0, 0⟩ -- R381
  | .TBM_CH_CAL_LATE => ⟨0x280114, [(8, 0x20)], 0, 0, 0, 0xffffffff, 0, 0, 0⟩ -- R381
  | .LOFT_STAT => ⟨0x300000, [], 0, 0, 0, 0, 0, 0, 0⟩ -- R406
  | .LOFT_INT_STAT => ⟨0x300004, [], 0, 0, 0xf, 0, 0, 0, 0⟩ -- R407
  | .LOFT_INT_EN => ⟨0x300008, [], 0xf, 0, 0, 0, 0, 0, 0⟩ -- R407
  | .LOFT_SHARED_SIZE => ⟨0x300010, [], 0, 0, 0, 0, 0, 0, 0⟩ -- R408
  | .LOFT_SHARED_USED => ⟨0x300014, [], 0, 0, 0, 0, 0, 0, 0⟩ -- R408
  | .LOFT_RELAY_CFG => ⟨0x300020, [(4, 0x10)], 0, 0x7ffff, 0, 0, 0, 0, 0xa00⟩ -- R408
  | .LOFT_RELAY_USED => ⟨0x300024, [(4, 0x10)], 0, 0, 0, 0, 0, 0, 0⟩ -- R408
  | .LOFT_RELAY_DROP => ⟨0x300028, [(4, 0x10)], 0, 0, 0, 0xffffffff, 0, 0, 0⟩ -- R410
  | .LOFT_PORT_GUAR => ⟨0x301000, [(64, 0x20)], 0, 0x7ffff, 0, 0, 0, 0, 0x800⟩ -- R408
  | .LOFT_PORT_MAX => ⟨0x301004, [(64, 0x20)], 0, 0x7ffff, 0, 0, 0, 0, 0x8000⟩ -- R408
  | .LOFT_PORT_CT => ⟨0x301008, [(64, 0x20)], 0, 0xff, 0, 0, 0, 0, 1⟩ -- R409
  | .LOFT_PORT_USED => ⟨0x30100c, [(64, 0x20)], 0, 0, 0, 0, 0, 0, 0⟩ -- R408
  | .LOFT_PORT_STOMP => ⟨0x301010, [(64, 0x20)], 0, 0, 0, 0xffffffff, 0, 0, 0⟩ -- R410
  | .LOFT_QLIM_U => ⟨0x304000, [(512, 0x20)], 0, 0x7ffff, 0, 0, 0, 0, 0x4000⟩ -- R408
  | .LOFT_QLIM_C => ⟨0x304004, [(512, 0x20)], 0, 0x7ffff, 0, 0, 0, 0, 0x4000⟩ -- R408
  | .LOFT_QSTAT_U => ⟨0x304008, [(512, 0x20)], 0, 0, 0, 0, 0, 0, 0⟩ -- R408
  | .LOFT_QSTAT_C => ⟨0x30400c, [(512, 0x20)], 0, 0, 0, 0, 0, 0, 0⟩ -- R408
  | .LOFT_QDROP => ⟨0x304010, [(512, 0x20)], 0, 0, 0, 0xffffffff, 0, 0, 0⟩ -- R410
  | .LOFT_QGAP => ⟨0x304014, [(512, 0x20)], 0, 0, 0, 0xffffffff, 0, 0, 0⟩ -- R410
  | .LOFT_QFLAG => ⟨0x304018, [(512, 0x20)], 0, 0, 3, 0, 0, 0, 0⟩ -- R411
  | .GATE_INT_STAT => ⟨0x380000, [], 0, 0, 1, 0, 0, 0, 0⟩ -- R434
  | .GATE_INT_EN => ⟨0x380004, [], 1, 0, 0, 0, 0, 0, 0⟩ -- R434
  | .GATE_PORT_CFG => ⟨0x381000, [(64, 0x20)], 0, 0x87ff003f, 0, 0, 0, 0, 0x10014⟩ -- R435
  | .GATE_PORT_CYCLE => ⟨0x381004, [(64, 0x20)], 0, 0x7fffffff, 0, 0, 0, 0, 0x4b0⟩ -- R436
  | .GATE_PORT_BASE_LO => ⟨0x381008, [(64, 0x20)], 0, 0xffffffff, 0, 0, 0, 0, 0⟩ -- R436
  | .GATE_PORT_BASE_HI => ⟨0x38100c, [(64, 0x20)], 0, 0xffffffff, 0, 0, 0, 0, 0⟩ -- R436
  | .GATE_PORT_STAT => ⟨0x381010, [(64, 0x20)], 0, 0, 0, 0, 0, 0, 0⟩ -- R437
  | .GATE_QSHP => ⟨0x384000, [(512, 0x10)], 0, 0xffffffff, 0, 0, 0, 0, 0x40000000⟩ -- R438
  | .GATE_QSHP_FILL => ⟨0x384004, [(512, 0x10)], 0, 0, 0, 0, 0, 0, 0⟩ -- R439
  | .GATE_QOVERSIZE => ⟨0x384008, [(512, 0x10)], 0, 0, 0, 0xffffffff, 0, 0, 0⟩ -- R440
  | .TIM_STAT => ⟨0x400000, [], 0, 0, 0, 0, 0, 0, 0⟩ -- R469
  | .TIM_INT_STAT => ⟨0x400004, [], 0, 0, 0xfff, 0, 0, 0, 0⟩ -- R470
  | .TIM_INT_EN => ⟨0x400008, [], 0xfff, 0, 0, 0, 0, 0, 0⟩ -- R470
  | .TIM_SNAP_CTL => ⟨0x400010, [], 0, 0, 0, 0, 1, 0, 0⟩ -- R471
  | .TIM_SNAP_BEAT_LO => ⟨0x400014, [], 0, 0, 0, 0, 0, 0, 0⟩ -- R471
  | .TIM_SNAP_BEAT_HI => ⟨0x400018, [], 0, 0, 0, 0, 0, 0, 0⟩ -- R471
  | .TIM_TB_CFG => ⟨0x400100, [(4, 0x40)], 0, 0xfcf0ff00, 0, 0, 0, 0, 0x400000⟩ -- R472
  | .TIM_TB_INC_LO => ⟨0x400104, [(4, 0x40)], 0, 0xffffffff, 0, 0, 0, 0, 0x55555555⟩ -- R473
  | .TIM_TB_INC_HI => ⟨0x400108, [(4, 0x40)], 0, 0xff, 0, 0, 0, 0, 0xd5⟩ -- R473
  | .TIM_TB_ADJ_CTL => ⟨0x40010c, [(4, 0x40)], 0, 0xf0000000, 0, 0, 0, 0, 0⟩ -- R474
  | .TIM_TB_ADJ_NS => ⟨0x400110, [(4, 0x40)], 0, 0x3fffffff, 0, 0, 0, 0, 0⟩ -- R474
  | .TIM_TB_ADJ_SEC_LO => ⟨0x400114, [(4, 0x40)], 0, 0xffffffff, 0, 0, 0, 0, 0⟩ -- R474
  | .TIM_TB_ADJ_SEC_HI => ⟨0x400118, [(4, 0x40)], 0, 0xffff, 0, 0, 0, 0, 0⟩ -- R474
  | .TIM_TB_SUPV => ⟨0x40011c, [(4, 0x40)], 0, 0xffffffff, 0, 0, 0, 0, 0x3e807d0⟩ -- R475
  | .TIM_TB_PERR => ⟨0x400120, [(4, 0x40)], 0, 0, 0, 0, 0, 0, 0⟩ -- R475
  | .TIM_TB_SNAP_FRAC => ⟨0x400130, [(4, 0x40)], 0, 0, 0, 0, 0, 0, 0⟩ -- R471
  | .TIM_TB_SNAP_NS => ⟨0x400134, [(4, 0x40)], 0, 0, 0, 0, 0, 0, 0⟩ -- R471
  | .TIM_TB_SNAP_SEC_LO => ⟨0x400138, [(4, 0x40)], 0, 0, 0, 0, 0, 0, 0⟩ -- R471
  | .TIM_TB_SNAP_SEC_HI => ⟨0x40013c, [(4, 0x40)], 0, 0, 0, 0, 0, 0, 0⟩ -- R471
  | .TIM_PPSI_CFG => ⟨0x400300, [(4, 0x80)], 0, 0xc0000000, 0, 0, 0, 0, 0⟩ -- R476
  | .TIM_PPSI_POS => ⟨0x400304, [(4, 0x80)], 0, 0, 0, 0, 0, 0, 0⟩ -- R476
  | .TIM_PPSI_BEAT_LO => ⟨0x400308, [(4, 0x80)], 0, 0, 0, 0, 0, 0, 0⟩ -- R471
  | .TIM_PPSI_BEAT_HI => ⟨0x40030c, [(4, 0x80)], 0, 0, 0, 0, 0, 0, 0⟩ -- R471
  | .TIM_PPSI_CAP_FRAC => ⟨0x400310, [(4, 0x80), (4, 0x10)], 0, 0, 0, 0, 0, 0, 0⟩ -- R471
  | .TIM_PPSI_CAP_NS => ⟨0x400314, [(4, 0x80), (4, 0x10)], 0, 0, 0, 0, 0, 0, 0⟩ -- R471
  | .TIM_PPSI_CAP_SEC_LO => ⟨0x400318, [(4, 0x80), (4, 0x10)], 0, 0, 0, 0, 0, 0, 0⟩ -- R471
  | .TIM_PPSI_CAP_SEC_HI => ⟨0x40031c, [(4, 0x80), (4, 0x10)], 0, 0, 0, 0, 0, 0, 0⟩ -- R471
  | .TIM_PPSI_CNT => ⟨0x400350, [(4, 0x80)], 0, 0, 0, 0xffffffff, 0, 0, 0⟩ -- R476
  | .TIM_PPSO_CFG => ⟨0x400600, [(4, 0x10)], 0, 0xf00fffff, 0, 0, 0, 0, 0x400186a0⟩ -- R477
  | .TIM_PPSO_OFS => ⟨0x400604, [(4, 0x10)], 0, 0xffffffff, 0, 0, 0, 0, 0⟩ -- R477
  | .TIM_PPSO_STAT => ⟨0x400608, [(4, 0x10)], 0, 0, 0, 0, 0, 0, 0⟩ -- R477
  | .TIM_PTP_PORT => ⟨0x401000, [(64, 0x20)], 0, 0xc0000000, 0, 0, 0, 0, 0x80000000⟩ -- R478
  | .TIM_PTP_CNT => ⟨0x401004, [(64, 0x20), (5, 4)], 0, 0, 0, 0xffffffff, 0, 0, 0⟩ -- R479
  | .PAIR_STAT => ⟨0x410000, [], 0, 0, 0, 0, 0, 0, 0⟩ -- R518
  | .PAIR_INT_STAT => ⟨0x410004, [], 0, 0, 0xff, 0, 0, 0, 0⟩ -- R519
  | .PAIR_INT_EN => ⟨0x410008, [], 0xff, 0, 0, 0, 0, 0, 0⟩ -- R519
  | .PAIR_CFG => ⟨0x41000c, [], 0, 0xff, 0, 0, 0, 0, 0x18⟩ -- R520
  | .PAIR_SKEW => ⟨0x410010, [], 0, 0, 0, 0, 0, 0, 0⟩ -- R520
  | .PAIR_SYNC_STAT => ⟨0x410014, [], 0, 0, 0, 0, 0, 0, 0⟩ -- R521
  | .PAIR_GHOSTS => ⟨0x410018, [], 0, 0, 0, 0, 0, 0, 0⟩ -- R521
  | .PAIR_DIG_DIFF => ⟨0x410020, [], 0, 0, 0xfff, 0, 0, 0, 0⟩ -- R522
  | .PAIR_DIFF_BEAT_LO => ⟨0x410024, [], 0, 0, 0, 0, 0, 0, 0⟩ -- R522
  | .PAIR_DIFF_BEAT_HI => ⟨0x410028, [], 0, 0, 0, 0, 0, 0, 0⟩ -- R522
  | .PAIR_CNT => ⟨0x410030, [(8, 4)], 0, 0, 0, 0xffffffff, 0, 0, 0⟩ -- R523
  | .RDG_STAT => ⟨0x420000, [], 0, 0, 0, 0, 0, 0, 0⟩ -- R546
  | .RDG_INT_STAT => ⟨0x420004, [], 0, 0, 0x1f, 0, 0, 0, 0⟩ -- R547
  | .RDG_INT_EN => ⟨0x420008, [], 0x1f, 0, 0, 0, 0, 0, 0⟩ -- R547
  | .RDG_CFG => ⟨0x42000c, [], 1, 0, 0, 0, 0, 0, 1⟩ -- R548
  | .RDG_SKEW => ⟨0x420010, [], 0, 0, 0, 0, 0, 0, 0⟩ -- R548
  | .RDG_LANE_CTL => ⟨0x420100, [(16, 0x20)], 0xf00003e, 0, 0, 0, 0x80000000, 0, 0⟩ -- R549
  | .RDG_LANE_STAT => ⟨0x420104, [(16, 0x20)], 0, 0, 0, 0, 0, 0, 0⟩ -- R550
  | .RDG_LANE_CNT => ⟨0x420108, [(16, 0x20), (6, 4)], 0, 0, 0, 0xffffffff, 0, 0, 0⟩ -- R551
  | .PST_CFG => ⟨0x430000, [], 0, 0, 0, 0, 0, 1, 0⟩ -- R585
  | .PST_STAT => ⟨0x430004, [], 0, 0, 0, 0, 0, 0, 0⟩ -- R585
  | .PST_ALERT => ⟨0x430008, [], 0, 0, 0, 0, 0x80000000, 0, 0⟩ -- R585
  | .PST_INJ => ⟨0x43000c, [], 0, 0, 0, 0, 0xffffffff, 0, 0⟩ -- R585
  | .PST_FIRST => ⟨0x430010, [], 0, 0, 0, 0, 0, 0, 0⟩ -- R585
  | .PST_FIRST_BEAT_LO => ⟨0x430014, [], 0, 0, 0, 0, 0, 0, 0⟩ -- R586
  | .PST_FIRST_BEAT_HI => ⟨0x430018, [], 0, 0, 0, 0, 0, 0, 0⟩ -- R586
  | .PST_RST_CAUSE => ⟨0x43001c, [], 0, 0, 0, 0, 0, 0, 0⟩ -- R585
  | .PST_PEND => ⟨0x430040, [(6, 4)], 0, 0, 0, 0, 0, 0, 0⟩ -- R586
  | .PST_SRC_REACT => ⟨0x431000, [(190, 0x10)], 0, 0x3ff, 0, 0, 0, 0, 0⟩ -- R587
  | .PST_SRC_WIN => ⟨0x431004, [(190, 0x10)], 0, 0xff0fffff, 0, 0, 0, 0, 0x1000400⟩ -- R587
  | .PST_SRC_STAT => ⟨0x431008, [(190, 0x10)], 0, 0, 0x88000000, 0, 0, 0, 0⟩ -- R587
  | .PST_SRC_CNT => ⟨0x43100c, [(190, 0x10)], 0, 0, 0, 0xffffffff, 0, 0, 0⟩ -- R587
  | .WHP_CTL => ⟨0x440000, [], 0, 0, 0, 0, 0xffffffff, 0, 0⟩ -- R589
  | .WHP_CFG => ⟨0x440004, [], 0xc000001f, 0, 0, 0, 0, 0, 0⟩ -- R589
  | .WHP_STAT => ⟨0x440008, [], 0, 0, 0x80000000, 0, 0, 0, 0⟩ -- R589
  | .WHP_INT_STAT => ⟨0x44000c, [], 0, 0, 3, 0, 0, 0, 0⟩ -- R589
  | .WHP_INT_EN => ⟨0x440010, [], 3, 0, 0, 0, 0, 0, 0⟩ -- R589
  | .WHP_MISSED => ⟨0x440014, [], 0, 0, 0, 0xffffffff, 0, 0, 0⟩ -- R589
  | .WHP_FAULT => ⟨0x440018, [], 0xc00000ff, 0, 0, 0, 0, 0, 0⟩ -- R589
  | .WHP_BEAT_LO => ⟨0x440020, [], 0xffffffff, 0, 0, 0, 0, 0, 0⟩ -- R589
  | .WHP_BEAT_HI => ⟨0x440024, [], 0xffffffff, 0, 0, 0, 0, 0, 0⟩ -- R589
  | .WHP_TM_CFG => ⟨0x440028, [], 0xb000ffff, 0, 0, 0, 0, 0, 0⟩ -- R589
  | .WHP_TM_SEC_LO => ⟨0x44002c, [], 0xffffffff, 0, 0, 0, 0, 0, 0⟩ -- R589
  | .WHP_TM_NS => ⟨0x440030, [], 0x3fffffff, 0, 0, 0, 0, 0, 0⟩ -- R589
  | .WHP_REC => ⟨0x440100, [(16, 4)], 0, 0, 0, 0, 0, 0, 0⟩ -- R589
  | .PMC_CYC_LO => ⟨0x450000, [(20, 0x200)], 0, 0, 0, 0, 0, 0, 0⟩ -- R591
  | .PMC_CYC_HI => ⟨0x450004, [(20, 0x200)], 0, 0, 0, 0, 0, 0, 0⟩ -- R591
  | .PMC_SNAP_CYC_LO => ⟨0x450008, [(20, 0x200)], 0, 0, 0, 0, 0, 0, 0⟩ -- R591
  | .PMC_SNAP_CYC_HI => ⟨0x45000c, [(20, 0x200)], 0, 0, 0, 0, 0, 0, 0⟩ -- R591
  | .PMC_CNT_CFG => ⟨0x450020, [(20, 0x200), (8, 0x10)], 0xcfe000ff, 0, 0x30000000, 0, 0, 0, 0xfe00000⟩ -- R591
  | .PMC_CNT_LO => ⟨0x450024, [(20, 0x200), (8, 0x10)], 0xffffffff, 0, 0, 0, 0, 0, 0⟩ -- R591
  | .PMC_CNT_HI => ⟨0x450028, [(20, 0x200), (8, 0x10)], 0xffff, 0, 0, 0, 0, 0, 0⟩ -- R591
  | .PMC_SNAP_LO => ⟨0x4500a0, [(20, 0x200), (8, 8)], 0, 0, 0, 0, 0, 0, 0⟩ -- R591
  | .PMC_SNAP_HI => ⟨0x4500a4, [(20, 0x200), (8, 8)], 0, 0, 0, 0, 0, 0, 0⟩ -- R591
  | .PMC_INT_STAT => ⟨0x458000, [], 0, 0, 0xfffff, 0, 0, 0, 0⟩ -- R591
  | .PMC_INT_EN => ⟨0x458004, [], 0xfffff, 0, 0, 0, 0, 0, 0⟩ -- R591
  | .PWR_INT_STAT => ⟨0x460004, [], 0, 0, 7, 0, 0, 0, 0⟩ -- R626
  | .PWR_INT_EN => ⟨0x460008, [], 7, 0, 0, 0, 0, 0, 0⟩ -- R626
  | .PWR_THERM => ⟨0x460010, [], 0xff00, 0xff, 0, 0, 0, 0, 0x646e⟩ -- R627
  | .PWR_TEMP => ⟨0x460014, [], 0, 0, 0, 0, 0, 0, 0⟩ -- R627
  | .PWR_THROTTLE_CNT => ⟨0x460018, [], 0, 0, 0, 0xffffffff, 0, 0, 0⟩ -- R627
  | .PWR_DOM_CTL_FIX => ⟨0x460100, [(5, 4)], 0, 0, 0, 0, 0, 0, 0x80000000⟩ -- R625
  | .PWR_DOM_CTL_SW => ⟨0x460114, [(16, 4)], 0, 0x80000000, 0, 0, 0, 0, 0⟩ -- R625
  | .PWR_DOM_CTL_RDG => ⟨0x460154, [], 0, 0x80000000, 0, 0, 0, 0, 0x80000000⟩ -- R625
  | .PWR_DOM_CTL_TBM => ⟨0x460158, [(8, 4)], 0, 0, 0, 0, 0, 0, 0⟩ -- R625
  | .PWR_DOM_CTL_LOFT => ⟨0x460178, [(4, 4)], 0, 0x80000000, 0, 0, 0, 0, 0⟩ -- R625
  | .PWR_DOM_STAT => ⟨0x460200, [(34, 4)], 0, 0, 0, 0, 0, 0, 0⟩ -- R625
  | .HST_PCIE_STAT => ⟨0x470000, [], 0, 0, 0, 0, 0, 0, 0⟩ -- R653
  | .HST_INT_STAT => ⟨0x470004, [], 0, 0, 7, 0, 0, 0, 0⟩ -- R654
  | .HST_INT_EN => ⟨0x470008, [], 7, 0, 0, 0, 0, 0, 0⟩ -- R654
  | .HST_ACC_ERR => ⟨0x470010, [], 0, 0, 0x80000000, 0, 0, 0, 0⟩ -- R655
  | .HST_ACC_ERR_ADDR => ⟨0x470014, [], 0, 0, 0, 0, 0, 0, 0⟩ -- R655
  | .HST_APER_SEL => ⟨0x470020, [(2, 4)], 0xf, 0, 0, 0, 0, 0, 0⟩ -- R656
  | .HST_SMB_STAT => ⟨0x470030, [], 0, 0, 0, 0, 0, 0, 0⟩ -- R655
  | .HST_CNT => ⟨0x470040, [(4, 4)], 0, 0, 0, 0xffffffff, 0, 0, 0⟩ -- R656
  | .MSIX_ADDR_LO => ⟨0x478000, [(64, 0x10)], 0xfffffffc, 0, 0, 0, 0, 0, 0⟩ -- R657
  | .MSIX_ADDR_HI => ⟨0x478004, [(64, 0x10)], 0xffffffff, 0, 0, 0, 0, 0, 0⟩ -- R657
  | .MSIX_DATA => ⟨0x478008, [(64, 0x10)], 0xffffffff, 0, 0, 0, 0, 0, 0⟩ -- R657
  | .MSIX_CTRL => ⟨0x47800c, [(64, 0x10)], 1, 0, 0, 0, 0, 0, 1⟩ -- R657
  | .MSIX_PEND => ⟨0x479000, [(2, 4)], 0, 0, 0, 0, 0, 0, 0⟩ -- R657
  | .RXPORT_CTL => ⟨0x10000000, [(32, 0x40)], 0, 0xffff, 0, 0, 0, 0, 0⟩ -- R155
  | .RXPORT_UNKNOWN_SC => ⟨0x10000004, [(32, 0x40)], 0, 0, 0, 0xffffffff, 0, 0, 0⟩ -- R156
  | .RXPORT_BAD_TAG => ⟨0x10000008, [(32, 0x40)], 0, 0, 0, 0xffffffff, 0, 0, 0⟩ -- R156
  | .RXPORT_RSV => ⟨0x1000000c, [(32, 0x40)], 0, 0, 0, 0, 0, 0, 0⟩ -- R154
  | .THP_CTL => ⟨0x20000000, [(32, 0x40)], 0, 0xf000ffff, 0, 0, 0, 0, 0⟩ -- R197
  | .THP_STAT => ⟨0x20000004, [(32, 0x40)], 0, 0, 0, 0, 0, 0, 0⟩ -- R198
  | .THP_EVT => ⟨0x20000008, [(32, 0x40)], 0, 0, 0x7f, 0, 0, 0, 0⟩ -- R199
  | .THP_EVT_EN => ⟨0x2000000c, [(32, 0x40)], 0x7f, 0, 0, 0, 0, 0, 0⟩ -- R199
  | .THP_CNT => ⟨0x20000010, [(32, 0x40), (11, 4)], 0, 0, 0, 0xffffffff, 0, 0, 0⟩ -- R200
  | .THP_RSV => ⟨0x2000003c, [(32, 0x40)], 0, 0, 0, 0, 0, 0, 0⟩ -- R196
  | .CO_CTL => ⟨0x30000000, [(65536, 0x40)], 0, 0xefdf07ff, 0, 0, 0, 0, 0⟩ -- R203
  | .CO_ROUTE => ⟨0x30000004, [(65536, 0x40)], 0, 0xffff071f, 0, 0, 0, 0, 0⟩ -- R205
  | .CO_SCI => ⟨0x30000008, [(65536, 0x40), (6, 4)], 0, 0xffffffff, 0, 0, 0, 0, 0⟩ -- R206
  | .CO_SOFT_LIM => ⟨0x30000020, [(65536, 0x40)], 0, 0xffffffff, 0, 0, 0, 0, 0x20000000⟩ -- R226
  | .CO_HARD_LIM => ⟨0x30000024, [(65536, 0x40)], 0, 0xffffffff, 0, 0, 0, 0, 0x40000000⟩ -- R226
  | .CO_ADV => ⟨0x30000028, [(65536, 0x40)], 0, 0xfffffff, 0, 0, 0, 0, 0⟩ -- R234
  | .CO_KEY => ⟨0x3000002c, [(65536, 0x40)], 0, 0x80000fff, 0, 0, 0, 0, 0⟩ -- R235
  | .CO_STAGE => ⟨0x30000030, [(65536, 0x40)], 0, 0, 0, 0, 0, 0, 0⟩ -- R237
  | .CO_STATE => ⟨0x30000034, [(65536, 0x40)], 0, 0, 0x800000, 0, 0, 0, 0⟩ -- R238
  | .CO_TXPN_LO => ⟨0x30000038, [(65536, 0x40)], 0, 0, 0, 0, 0, 0, 0⟩ -- R237
  | .CO_TXPN_HI => ⟨0x3000003c, [(65536, 0x40)], 0, 0, 0, 0, 0, 0, 0⟩ -- R237
  | .CST_WIDE => ⟨0x40000000, [(65536, 0x40), (8, 4)], 0, 0, 0, 0, 0, 0, 0⟩ -- R236
  | .CST_CNT => ⟨0x40000020, [(65536, 0x40), (8, 4)], 0, 0, 0, 0xffffffff, 0, 0, 0⟩ -- R236
  | .TCAM_KEY => ⟨0x50000000, [(16384, 0x40), (10, 4)], 0, 0xffffffff, 0, 0, 0, 0, 0⟩ -- R345
  | .TCAM_RESULT => ⟨0x50000028, [(16384, 0x40)], 0, 0xfe00ffff, 0, 0, 0, 0, 0⟩ -- R345
  | .TCAM_RSV => ⟨0x5000002c, [(16384, 0x40), (5, 4)], 0, 0, 0, 0, 0, 0, 0⟩ -- R345
  | .EMR_WORD => ⟨0x60000000, [(256, 0x40), (3, 4)], 0, 0xffffffff, 0, 0, 0, 0, 0⟩ -- R346
  | .EMR_RSV => ⟨0x6000000c, [(256, 0x40)], 0, 0, 0, 0, 0, 0, 0⟩ -- R346
  | .DRQ_WORD => ⟨0x70000000, [(256, 0x40), (3, 4)], 0, 0xffffffff, 0, 0, 0, 0, 0⟩ -- R346
  | .DRQ_RSV => ⟨0x7000000c, [(256, 0x40)], 0, 0, 0, 0, 0, 0, 0⟩ -- R346
  | .GCL_GATES => ⟨0x80000000, [(65536, 0x40)], 0, 0xff, 0, 0, 0, 0, 0xff⟩ -- R441
  | .GCL_INTERVAL => ⟨0x80000004, [(65536, 0x40)], 0, 0x7fffffff, 0, 0, 0, 0, 0x4b0⟩ -- R441
  | .POL_CIR => ⟨0x90000000, [(1024, 0x40)], 0, 0x800fffff, 0, 0, 0, 0, 0x80000000⟩ -- R441
  | .POL_CBS => ⟨0x90000004, [(1024, 0x40)], 0, 0x1fffff, 0, 0, 0, 0, 0⟩ -- R441
  | .POL_PIR => ⟨0x90000008, [(1024, 0x40)], 0, 0xfffff, 0, 0, 0, 0, 0⟩ -- R441
  | .POL_PBS => ⟨0x9000000c, [(1024, 0x40)], 0, 0x1fffff, 0, 0, 0, 0, 0⟩ -- R441

/-- Registers of the GLB block. -/
def glbRegs : List Reg :=
  [.GLB_ID, .GLB_SCRATCH, .GLB_INT_SUM_LO, .GLB_INT_SUM_HI, .GLB_DBG]

/-- Registers of the BOOT block. -/
def bootRegs : List Reg :=
  [.BOOT_STAT, .BOOT_INT_STAT, .BOOT_INT_EN, .BOOT_IMG_SEQ, .BOOT_TIME, .BOOT_LIFE, .BOOT_LIFE_WARN, .BOOT_FL_INFO,
     .BOOT_FL_ADDR, .BOOT_FL_CTL, .BOOT_FL_STAT, .BOOT_DIGEST, .BOOT_FL_DATA]

/-- Registers of the VLT block. -/
def vltRegs : List Reg :=
  [.VLT_STAT, .VLT_PUF_STAT, .VLT_INT_STAT, .VLT_INT_EN, .VLT_ENG_STAT, .VLT_KEK_LIMIT, .VLT_MASK_STAT,
     .VLT_SERIAL_LO, .VLT_SERIAL_HI, .VLT_CK_CTL, .VLT_CK_STAT, .VLT_CK_SEQ, .VLT_PK_CTL, .VLT_PK_STAT,
     .VLT_KCV_LO, .VLT_KCV_HI, .VLT_LC_CTL, .VLT_LC_STAT, .VLT_CERT_LEN, .VLT_KEK, .VLT_PK_IN, .VLT_PK_OUT,
     .VLT_LC_CMD, .VLT_CERT, .VLT_KW_STAT]

/-- Registers of the BEAT block. -/
def beatRegs : List Reg :=
  [.BEAT_STAT, .BEAT_PHASE, .BEAT_COUNT_LO, .BEAT_COUNT_HI, .BEAT_SCHED, .BEAT_APPLY_LEAD, .BEAT_APPLY_LO,
     .BEAT_APPLY_HI, .BEAT_BATCH_CTL, .BEAT_BATCH_STAT, .BEAT_BATCH_BEAT_LO, .BEAT_BATCH_BEAT_HI, .BEAT_BATCH_DONE,
     .BEAT_ALARM_LO, .BEAT_ALARM_HI, .BEAT_ALARM_CTL, .BEAT_INT_STAT, .BEAT_INT_EN, .BEAT_DET_CAUSE,
     .BEAT_DET_VOID_LO, .BEAT_DET_VOID_HI, .BEAT_DLY_800, .BEAT_DLY_400, .BEAT_DLY_200, .BEAT_DLY_100]

/-- Registers of the DRY block. -/
def dryRegs : List Reg :=
  [.DRY_STAT, .DRY_GROUP, .DRY_INT_STAT, .DRY_INT_EN, .DRY_OB_PEAK, .DRY_IB_PEAK, .DRY_CPORT_CTL, .DRY_CPORT_STAT,
     .DRY_LPORT_CTL, .DRY_LPORT_THATCH, .DRY_LPORT_STAT, .DRY_CLANE, .DRY_LLANE, .DRY_CNT_LO, .DRY_CNT_HI]

/-- Registers of the CLS block. -/
def clsRegs : List Reg :=
  [.CLS_INT_STAT, .CLS_INT_EN, .CLS_BUDGET, .CLS_AGE, .CLS_MOVE, .CLS_FLUSH, .CLS_EM_SEED0_LO, .CLS_EM_SEED0_HI,
     .CLS_EM_SEED1_LO, .CLS_EM_SEED1_HI, .CLS_BLOOM_SEED4, .CLS_BLOOM_SEED6, .CLS_PORT, .CLS_PCPMAP, .CLS_LIMIT,
     .CLS_LCOUNT, .CLS_DLEN4, .CLS_DLEN6, .CLS_OVF_STAT, .CLS_CNT]

/-- Registers of the TBM block. -/
def tbmRegs : List Reg :=
  [.TBM_STAT, .TBM_INT_STAT, .TBM_INT_EN, .TBM_SCRUB, .TBM_CAL, .TBM_DMA_HADDR_LO, .TBM_DMA_HADDR_HI, .TBM_DMA_SRC,
     .TBM_DMA_CNT, .TBM_DMA_CTL, .TBM_DMA_STAT, .TBM_INJ, .TBM_CH_CFG, .TBM_CH_STAT, .TBM_CH_CORR, .TBM_CH_PEAK,
     .TBM_CH_FAIL, .TBM_CH_CAL_LATE]

/-- Registers of the LOFT block. -/
def loftRegs : List Reg :=
  [.LOFT_STAT, .LOFT_INT_STAT, .LOFT_INT_EN, .LOFT_SHARED_SIZE, .LOFT_SHARED_USED, .LOFT_RELAY_CFG,
     .LOFT_RELAY_USED, .LOFT_RELAY_DROP, .LOFT_PORT_GUAR, .LOFT_PORT_MAX, .LOFT_PORT_CT, .LOFT_PORT_USED,
     .LOFT_PORT_STOMP, .LOFT_QLIM_U, .LOFT_QLIM_C, .LOFT_QSTAT_U, .LOFT_QSTAT_C, .LOFT_QDROP, .LOFT_QGAP,
     .LOFT_QFLAG]

/-- Registers of the GATE block. -/
def gateRegs : List Reg :=
  [.GATE_INT_STAT, .GATE_INT_EN, .GATE_PORT_CFG, .GATE_PORT_CYCLE, .GATE_PORT_BASE_LO, .GATE_PORT_BASE_HI,
     .GATE_PORT_STAT, .GATE_QSHP, .GATE_QSHP_FILL, .GATE_QOVERSIZE]

/-- Registers of the TIM block. -/
def timRegs : List Reg :=
  [.TIM_STAT, .TIM_INT_STAT, .TIM_INT_EN, .TIM_SNAP_CTL, .TIM_SNAP_BEAT_LO, .TIM_SNAP_BEAT_HI, .TIM_TB_CFG,
     .TIM_TB_INC_LO, .TIM_TB_INC_HI, .TIM_TB_ADJ_CTL, .TIM_TB_ADJ_NS, .TIM_TB_ADJ_SEC_LO, .TIM_TB_ADJ_SEC_HI,
     .TIM_TB_SUPV, .TIM_TB_PERR, .TIM_TB_SNAP_FRAC, .TIM_TB_SNAP_NS, .TIM_TB_SNAP_SEC_LO, .TIM_TB_SNAP_SEC_HI,
     .TIM_PPSI_CFG, .TIM_PPSI_POS, .TIM_PPSI_BEAT_LO, .TIM_PPSI_BEAT_HI, .TIM_PPSI_CAP_FRAC, .TIM_PPSI_CAP_NS,
     .TIM_PPSI_CAP_SEC_LO, .TIM_PPSI_CAP_SEC_HI, .TIM_PPSI_CNT, .TIM_PPSO_CFG, .TIM_PPSO_OFS, .TIM_PPSO_STAT,
     .TIM_PTP_PORT, .TIM_PTP_CNT]

/-- Registers of the PAIR block. -/
def pairRegs : List Reg :=
  [.PAIR_STAT, .PAIR_INT_STAT, .PAIR_INT_EN, .PAIR_CFG, .PAIR_SKEW, .PAIR_SYNC_STAT, .PAIR_GHOSTS, .PAIR_DIG_DIFF,
     .PAIR_DIFF_BEAT_LO, .PAIR_DIFF_BEAT_HI, .PAIR_CNT]

/-- Registers of the RDG block. -/
def rdgRegs : List Reg :=
  [.RDG_STAT, .RDG_INT_STAT, .RDG_INT_EN, .RDG_CFG, .RDG_SKEW, .RDG_LANE_CTL, .RDG_LANE_STAT, .RDG_LANE_CNT]

/-- Registers of the PST block. -/
def pstRegs : List Reg :=
  [.PST_CFG, .PST_STAT, .PST_ALERT, .PST_INJ, .PST_FIRST, .PST_FIRST_BEAT_LO, .PST_FIRST_BEAT_HI, .PST_RST_CAUSE,
     .PST_PEND, .PST_SRC_REACT, .PST_SRC_WIN, .PST_SRC_STAT, .PST_SRC_CNT]

/-- Registers of the WHP block. -/
def whpRegs : List Reg :=
  [.WHP_CTL, .WHP_CFG, .WHP_STAT, .WHP_INT_STAT, .WHP_INT_EN, .WHP_MISSED, .WHP_FAULT, .WHP_BEAT_LO, .WHP_BEAT_HI,
     .WHP_TM_CFG, .WHP_TM_SEC_LO, .WHP_TM_NS, .WHP_REC]

/-- Registers of the PMC block. -/
def pmcRegs : List Reg :=
  [.PMC_CYC_LO, .PMC_CYC_HI, .PMC_SNAP_CYC_LO, .PMC_SNAP_CYC_HI, .PMC_CNT_CFG, .PMC_CNT_LO, .PMC_CNT_HI,
     .PMC_SNAP_LO, .PMC_SNAP_HI, .PMC_INT_STAT, .PMC_INT_EN]

/-- Registers of the PWR block. -/
def pwrRegs : List Reg :=
  [.PWR_INT_STAT, .PWR_INT_EN, .PWR_THERM, .PWR_TEMP, .PWR_THROTTLE_CNT, .PWR_DOM_CTL_FIX, .PWR_DOM_CTL_SW,
     .PWR_DOM_CTL_RDG, .PWR_DOM_CTL_TBM, .PWR_DOM_CTL_LOFT, .PWR_DOM_STAT]

/-- Registers of the HST block. -/
def hstRegs : List Reg :=
  [.HST_PCIE_STAT, .HST_INT_STAT, .HST_INT_EN, .HST_ACC_ERR, .HST_ACC_ERR_ADDR, .HST_APER_SEL, .HST_SMB_STAT,
     .HST_CNT, .MSIX_ADDR_LO, .MSIX_ADDR_HI, .MSIX_DATA, .MSIX_CTRL, .MSIX_PEND]

/-- Registers of the tables behind the apertures. -/
def tableRegs : List Reg :=
  [.RXPORT_CTL, .RXPORT_UNKNOWN_SC, .RXPORT_BAD_TAG, .RXPORT_RSV, .THP_CTL, .THP_STAT, .THP_EVT, .THP_EVT_EN,
     .THP_CNT, .THP_RSV, .CO_CTL, .CO_ROUTE, .CO_SCI, .CO_SOFT_LIM, .CO_HARD_LIM, .CO_ADV, .CO_KEY, .CO_STAGE,
     .CO_STATE, .CO_TXPN_LO, .CO_TXPN_HI, .CST_WIDE, .CST_CNT, .TCAM_KEY, .TCAM_RESULT, .TCAM_RSV, .EMR_WORD,
     .EMR_RSV, .DRQ_WORD, .DRQ_RSV, .GCL_GATES, .GCL_INTERVAL, .POL_CIR, .POL_CBS, .POL_PIR, .POL_PBS]

/-- The block whose span (R633) holds a BAR0 offset, and the tables for a key of 2^28 or more. -/
def blockOf (k : Nat) : List Reg :=
  if 0 ≤ k ∧ k < 0x10000 then glbRegs
  else if 0x10000 ≤ k ∧ k < 0x20000 then bootRegs
  else if 0x20000 ≤ k ∧ k < 0x30000 then vltRegs
  else if 0x30000 ≤ k ∧ k < 0x40000 then beatRegs
  else if 0x100000 ≤ k ∧ k < 0x200000 then dryRegs
  else if 0x200000 ≤ k ∧ k < 0x280000 then clsRegs
  else if 0x280000 ≤ k ∧ k < 0x300000 then tbmRegs
  else if 0x300000 ≤ k ∧ k < 0x380000 then loftRegs
  else if 0x380000 ≤ k ∧ k < 0x400000 then gateRegs
  else if 0x400000 ≤ k ∧ k < 0x410000 then timRegs
  else if 0x410000 ≤ k ∧ k < 0x420000 then pairRegs
  else if 0x420000 ≤ k ∧ k < 0x430000 then rdgRegs
  else if 0x430000 ≤ k ∧ k < 0x440000 then pstRegs
  else if 0x440000 ≤ k ∧ k < 0x450000 then whpRegs
  else if 0x450000 ≤ k ∧ k < 0x460000 then pmcRegs
  else if 0x460000 ≤ k ∧ k < 0x470000 then pwrRegs
  else if 0x470000 ≤ k ∧ k < 0x480000 then hstRegs
  else if 0x10000000 ≤ k then tableRegs
  else []

/-- The indices that place remainder `d` at repeats `dims`, when it falls on a word. -/
def dimIdx : List (Nat × Nat) → Nat → Option (List Nat)
  | [], d => if d = 0 then some [] else none
  | (n, s) :: r, d => if d / s < n then (dimIdx r (d % s)).map (d / s :: ·) else none

/-- A register with its repeat indices. -/
abbrev RegAt := Reg × List Nat

/-- The register at an offset or key, if one is there; otherwise the offset is unoccupied (R17). -/
def regAt (k : Nat) : Option RegAt :=
  (blockOf k).findSome? fun r =>
    if r.row.base ≤ k then (dimIdx r.row.dims (k - r.row.base)).map (r, ·) else none

/-- Offset or key of a register with repeat indices `ix`. -/
def Reg.key (r : Reg) (ix : List Nat := []) : Nat :=
  r.row.base + (List.zipWith (fun i d => i * d.2) ix r.row.dims).sum

/-- The value a key reads before anything has written it: the reset value of its register, 0 elsewhere. -/
def keyRst (k : Nat) : Nat :=
  match regAt k with
  | some (r, _) => r.row.rst
  | none => 0

/-- Key of word `w` of entry `e` of table `t` (R640, R641). -/
def tabKey (t e w : Nat) : Nat := t * 0x10000000 + e * 64 + w * 4

/-- Entries and words per entry of the tables (R640). -/
def tabShape : Nat → Option (Nat × Nat)
  | 1 => some (32, 4)
  | 2 => some (32, 16)
  | 3 => some (65536, 16)
  | 4 => some (65536, 16)
  | 5 => some (16384, 16)
  | 6 => some (256, 4)
  | 7 => some (256, 4)
  | 8 => some (65536, 2)
  | 9 => some (1024, 4)
  | _ => none

end Sys2Proof.Machine
end

