-- ==== Sys2Proof/Machine/State.lean ====
section
/-! DEFINITION. The state of the FJX3200: every register word, buffer, queue, counter, mode and pin the manual gives it,
with its value at reset, and the queue of waiting commands. Registers and table words that hold what was written to
them, and counters, are words of one sparse store; everything a status field is computed from is typed data. -/

namespace Sys2Proof.Machine

/-- Why the machine stops. -/
inductive Fault where
  /-- Raised by BEAT_BOUNDARY once the CCLK PLL has lost lock after beat 0: R22 puts beat boundaries and every datapath
  result from there on outside every statement until the next chip reset. Safe: the model stops where the device goes
  on in a way the manual does not describe. -/
  | pllUnlocked
  deriving DecidableEq, Repr

/-- Why a command is not carried out at all. -/
inductive Refusal where
  /-- Raised by exec for a command whose meaning has not been written. Safe: the model stops. -/
  | notModelled (mnemonic : String)
  deriving DecidableEq, Repr

/-- The clock and the determinism record (R20-R22, R57, R73). -/
structure Clock where
  /-- BEAT_COUNT. -/
  count   : Nat
  /-- CCLK offset within the beat, 0-1,199. -/
  cclk    : Nat
  /-- CCLK since reset release, for the cycle counters of R574. -/
  ticks   : Nat
  run     : Bool
  pllLock : Bool
  det     : Bool
  /-- BEAT_DET_VOID, and whether it holds a cause seen since DET last became 1 (R73). -/
  voidAt  : Nat
  voided  : Bool
  /-- FIXED_LAT of the beat under way and of the beats before it, by beat, newest first (R37). -/
  lats    : List (Nat × Nat)
  deriving DecidableEq, Repr

/-- The batch store (R43-R50). -/
structure BatchUnit where
  /-- Open batch, oldest entry first. -/
  open_   : List Entry
  ovf     : Bool
  /-- Sealed batches in seal order. -/
  sealed  : List Batch
  lastSeq : Nat
  lastRes : SealResult
  lastBeat : Nat
  any     : Bool
  doneSeq : Nat
  /-- Accepted batches that lowered FIXED_LAT: no enable before this beat (R38). -/
  latUntil : Nat
  deriving DecidableEq, Repr

/-- The covered state of R494 as it stands at a boundary: what digests, change lists and shingles are made of (R494, R513, R514). -/
structure Covered where
  beat    : Nat
  open_   : List Entry
  sealed  : List Batch
  words   : Tab Word
  coach   : Tab CoachDyn
  probe   : Tab Probe
  cls     : Tab ClsDray
  lines   : Tab (BitVec 240)
  queues  : Tab (List QEntry)
  relay   : Tab (List Pkt)
  toPush  : Tab (List Pkt)
  hold    : List (Nat × Nat × Nat)
  fill    : Tab (Int × Nat)
  tb      : Tab TimeBase
  ck      : Tab (BitVec 256)
  drv     : List DrvReq
  drvWait : List DrvReq
  floor   : Nat
  deriving DecidableEq, Repr

/-- Identity, keys and engine of the vault (R239-R299). -/
structure Vault where
  pufTries   : Nat
  pufErrs    : Nat
  pufMargin  : Bool
  pufFail    : Bool
  rootOk     : Bool
  /-- The PUF SRAM cells (R241, R243). -/
  pufCells   : PufCells
  /-- P, the active root's two slot keys and the identity private key (R243, R246, R261). -/
  puf        : BitVec 256
  root       : BitVec 256
  ckWrap     : BitVec 256
  slotMac    : BitVec 256
  ident      : BitVec 384
  lc         : LifeCycle
  epoch      : Nat
  trngOk     : Bool
  /-- Beats that have ended since the failure, the one it fell in among them (R256). -/
  trngRun    : Nat
  engOk      : Bool
  resetReq   : Bool
  trusted    : Bool
  pairKey    : BitVec 256
  /-- This device's lock nonce, when drawn, and the partner's (R275). -/
  nonce      : Option (BitVec 384)
  peerNonce  : Option (BitVec 384)
  peerSerial : BitVec 64
  peerPub    : Option (BitVec 384 × BitVec 384)
  /-- KEY-channel messages that wait for a frame, oldest first (R534). -/
  keyQ       : List Bytes
  /-- Certificate fragments received, by PART (R534). -/
  peerCert   : Tab Bytes
  /-- CK table (R276). -/
  ck         : Tab (BitVec 256)
  ckBusy     : Bool
  /-- Snapshot of the commit under way (R280). -/
  ckSnap     : Tab (BitVec 256)
  ckPend     : Bool
  /-- A batch of the boundary under way asks for a commit (R280). -/
  ckAsked    : Bool
  ckExh      : Bool
  ckValid    : Bool
  ckSlot     : Nat
  ckSeq      : Nat
  ckLast     : Nat
  kek        : Tab Kek
  /-- Check value shown in VLT_KCV. -/
  kcv        : BitVec 64
  jobs       : List EngJob
  drv        : List DrvReq
  /-- Requests that a key written into a CK index wakes again (R277). -/
  drvWait    : List DrvReq
  /-- Probe requests raised in the beat under way (R211). -/
  drvNew     : List DrvReq
  /-- A derivation completed in the beat under way, loaded at the boundary (R211). -/
  drvDone    : Option (DrvReq × Slot)
  /-- CCLK the engine is held by a derivation in the beat under way (R258). -/
  drvBeat    : Bool
  /-- BAR2: window words written and not yet started (R269). -/
  win        : Tab Word
  /-- VLT_KW_STAT codes, by window. -/
  kwStat     : Tab Nat
  /-- Public-key operation under way: opcode and KEK slot. -/
  pk         : Option (Nat × Nat)
  pkRes      : Nat
  pkOut      : Bytes
  /-- The record of the command under way, as GO found it (R248). -/
  lcRec      : Bytes
  lcBusy     : Bool
  lcRes      : Nat
  /-- Masks M0 and M1, the number of the permutation drawn, and the sweep (R253-R255). -/
  maskA      : BitVec 512
  maskB      : BitVec 512
  perm       : Nat
  gen        : Bool
  sweep      : Bool
  sweepPos   : Nat
  deriving DecidableEq, Repr

/-- A floor write on its way to taking effect (R220, R231, R487). -/
structure FloorWrite where
  /-- F'. -/
  f       : Nat
  /-- Beat in which it began. -/
  began   : Nat
  /-- This device's record is written. -/
  done    : Bool
  /-- It was written in time to count. -/
  inTime  : Bool
  /-- The write has failed (R597). -/
  failed  : Bool
  /-- The active's FLOOR event named it. -/
  told    : Bool
  deriving DecidableEq, Repr

/-- The stage floor (R219, R220). -/
structure Floor where
  value   : Nat
  /-- Records 0 and 1 as held: valid, SEQ and F. -/
  recs    : List (Option (Nat × Nat))
  write   : Option FloorWrite
  deriving DecidableEq, Repr

/-- Inbound pipe probe and pair-error records (R224, R231). -/
structure Coaches where
  dyn    : Tab CoachDyn
  /-- Probe slots by Inbound pipe d. -/
  probe  : Tab Probe
  /-- Slot addresses that the running sweep has still to reach and that were loaded or cleared since it began (R255). -/
  remasked : List Nat
  deriving DecidableEq, Repr

/-- A DMA job as GO started it (R371). -/
structure DmaJob where
  addr   : Nat
  chan   : Nat
  region : Nat
  first  : Nat
  count  : Nat
  deriving DecidableEq, Repr

/-- The table memory (R347-R381). -/
structure Tbm where
  /-- Plaintext line content by channel and line key; unlisted lines hold zero entries (R367). -/
  lines   : Tab (BitVec 240)
  /-- Raw lines written into the calibration region, by line key (R370). -/
  raw     : Tab (BitVec 288)
  /-- Injected or accumulated code errors: (line key, bit). -/
  flips   : List (Nat × Nat)
  /-- BitVec per channel of KT1 and KT2 draws (R356). -/
  keys    : Tab (BitVec 512)
  /-- Channel training state 0-3 and margin. -/
  train   : Tab Nat
  margin  : Tab Nat
  ready   : Tab Nat
  /-- TBM_CH_FAIL. -/
  fail    : Tab Nat
  /-- Beat in which a calibration read fell due, plus 1, by channel (R368). -/
  calDue  : Tab Nat
  /-- Next line of the scrub, by channel (R353). -/
  scrub   : Tab Nat
  /-- Correction write-backs queued: line keys (R354). -/
  wb      : List Nat
  /-- Operations of the beat under way: lookup reads by channel, others by 8 + channel (R315); at 24 + Dray, that its lookups are
  over. -/
  used    : Tab Nat
  /-- Armed error injections: bit, by channel (R373). -/
  armed   : Tab Nat
  /-- DMA job under way, result and records written (R371, R379). -/
  dma     : Option DmaJob
  dmaRes  : Nat
  dmaDone : Nat
  deriving DecidableEq, Repr

/-- The Loft and the egress queues (R382-R411). -/
structure Loft where
  /-- Egress queues by 8 x slot + class. -/
  queues   : Tab (List QEntry)
  /-- Relay units decrypted, waiting for their Outbound pipe, by Dray. -/
  relay    : Tab (List Pkt)
  /-- Units processed and not yet pushed, by pipe. -/
  toPush   : Tab (List Pkt)
  /-- Unit being transmitted, by port slot. -/
  tx       : Tab TxUnit
  /-- Cells of units that have left their queue and are not yet free: CCLK at which each becomes free, queue (egress
  8 x slot + class, relay 512 + d), bank (R385). -/
  hold     : List (Nat × Nat × Nat)
  /-- Cause of the last drop of each queue, LAST_CAUSE (R411). -/
  cause    : Tab Nat
  /-- Shaper fill in 1/9,600 byte, and the CCLK whose rise it already has, by queue (R422). -/
  fill     : Tab (Int × Nat)
  /-- CCLK of the last push into each queue (R397, R688). -/
  lastPush : Tab Nat
  /-- CCLK of the last start on each slot, for step 5 of R397. -/
  lastStart : Tab Nat
  /-- Next free CCLK of each Outbound pipe's relay starts (R103). -/
  relayNext : Tab Nat
  /-- Units pushed, for the bank choice (log entry 9). -/
  pushed   : Nat
  deriving DecidableEq, Repr

/-- Port inputs (R23-R28, R105-R108) and verdicts still to come (R143, R186). -/
structure Ports where
  dyn     : Tab PortDyn
  arrivals : List Arrival
  verdicts : List PendingVerdict
  sfs     : List PendingSf
  thatch  : Tab ThatchDyn
  /-- Units and bytes admitted in the beat under way, by pipe (R96). -/
  units   : Tab Nat
  bytes   : Tab Nat
  /-- Inbound units decided for admission in the beat under way: (slot, index) admitted. -/
  admits   : List (Nat × Nat)
  learn   : List LearnEvent
  deriving DecidableEq, Repr

/-- Time (R442-R479). -/
structure Time where
  tb      : Tab TimeBase
  pin     : Tab PpsIn
  pout    : Tab PpsOut
  /-- Snapshot requested in this beat, snapshot beat and values by time base. -/
  snapReq : Bool
  snapAt  : Nat
  snap    : Tab Nat
  deriving DecidableEq, Repr

/-- Pair operation (R480-R523). -/
structure Pair where
  state    : PairState
  partner  : Nat
  intact   : Bool
  /-- INTACT as the last boundary found it, and whether outcomes of R498 wait for a change of role. -/
  intactWas : Bool
  settled  : Bool
  coast    : Bool
  yield_   : Bool
  /-- Levels of ARB_FENCE and ARB_ROLE as filtered, ARB_FENCE at the last boundary, and ARB_ROLE samples, newest first (R501-R508,
  R518, R674). -/
  fence    : Bool
  role     : Bool
  fenceIn  : Bool
  roles    : List Bool
  hb       : Bool
  /-- Records held: beats received, newest first. -/
  recs     : List BRecord
  /-- Digest messages received, newest first. -/
  digests  : List DigestMsg
  /-- The covered state after the last boundaries, newest first, and the device's own digests and, in SYNCING, changed shingles with
  their CRC words, by beat (R494, R514). -/
  snaps    : List Covered
  own      : List (Nat × List (BitVec 64))
  changed  : List (Nat × List (Nat × Word))
  skew     : Int
  lat      : Nat
  /-- Beat of entry into the state. -/
  since    : Nat
  /-- SYNCING: phase, pass, shingles left, and shingles held until the next boundary. -/
  phase    : Nat
  pass     : Nat
  left     : Nat
  copied   : List CopyItem
  /-- SYNCING: place of the next shingle of the pass, whether the pass has a gap, whether a pass without one is over, the boundary at
  which each shingle was taken, and the bytes of a shingle held in part; none until one begins (R514, R535). -/
  nextIx   : Nat
  gap      : Bool
  whole    : Bool
  taken    : Tab Nat
  copyBuf  : Option Bytes
  /-- Shingles marked to be sent again (R514). -/
  marked   : List Nat
  /-- ACTIVE: next shingle of the pass, and the shingles under way with the bytes of each still to send (R513). -/
  sendIx   : Nat
  sendQ    : List (CopyItem × Bytes)
  /-- Whip requests of this device for its next digest message. -/
  whipReq  : Bool
  /-- A WHIP event for the record of the beat under way: SRC bits, trigger beat. -/
  whipRec  : Option (Nat × Nat)
  diffBeat : Nat
  /-- Event entries for the record of the beat under way (R487). -/
  events   : List Bytes
  /-- MATCH_ERR, CMD_LOST or OVF was seen since the last boundary (R501). -/
  astray   : Bool
  /-- Beat at which COAST began (R509). -/
  coastAt  : Nat
  /-- Highest FLOOR the partner has reported since the Ridge last locked (R504). -/
  peerFloor : Nat
  /-- Offset at which the partner's last frame arrived, a_own (R499). -/
  arrive   : Int
  /-- First beat whose record is due, from ALIGN or a handover (R489, R508, R512). -/
  recFrom  : Nat
  /-- A handover of R508 took effect at the boundary that began the beat under way; the device became ACTIVE by one. -/
  handed   : Bool
  byHand   : Bool
  /-- Beats whose digests are compared without some sources, and those sources, by beat (R231, R487). -/
  noCmp    : List (Nat × Nat)
  /-- Commands to forward and COMMAND messages held for the beat (R491). -/
  fwd      : List PairCmd
  /-- Deliveries of the open batch that have been noted for the partner (R274). -/
  dlvSent  : List Delivery
  /-- Deliveries still to forward, with the apply-beat once their batch is sealed (R274, R534; log entry 20). -/
  dlvs     : List (Option Nat × Delivery)
  deriving DecidableEq, Repr

/-- The Ridge lanes (R524-R551). -/
structure Ridge where
  lanes    : Tab Lane
  linkUp   : Bool
  peerUp   : Bool
  absent   : Bool
  spread   : Nat
  latest   : Nat
  /-- BEAT_COUNT of the last frame set of DATA frames, and whether the last set was one (R491, R535). -/
  lastSet  : Option Nat
  data     : Bool
  /-- CCLK since reset release at which training began or the link last went down (R540). -/
  quiet    : Nat
  /-- Training has begun (R531). -/
  started  : Bool
  /-- What the frames of the beat under way carry; none in TRAIN frames (R531, R533). -/
  tx       : Option RidgeTx
  deriving DecidableEq, Repr

/-- The Postilion (R552-R566). -/
structure Postilion where
  src      : Tab SrcDyn
  alert    : Bool
  fatal    : Bool
  firstEv  : Option (Nat × Nat)
  rstKind  : Nat
  rstSrc   : Nat
  /-- A CHIP reaction under way: its source (R563). -/
  chipReq  : Option Nat
  /-- Sources whose BLOCK reaction is due at the boundary after the CCLK they were asked for in, with that CCLK since reset
  release (R562). -/
  blockReq : List (Nat × Nat)
  /-- Events taken in this CCLK, by source (R557). -/
  inCclk   : Tab Nat
  /-- Beat in which vector 4 last sent for an event (R636). -/
  v4beat   : Option Nat
  /-- An event applied a set holding INT in this command (R636). -/
  v4req    : Bool
  deriving DecidableEq, Repr

/-- The Whip (R567-R573). -/
structure Whip where
  due      : List WhipDue
  seq      : Nat
  words    : List Word
  outLevel : Bool
  deriving DecidableEq, Repr

/-- The performance counters' own state (R574-R577). -/
structure Pmc where
  /-- Tick at which block b's cycle counter was 0. -/
  base     : Tab Nat
  snapCyc  : Tab Nat
  /-- Snapshot values by 8 b + k. -/
  snapCnt  : Tab Nat
  /-- Blocks with a wrap in the beat under way (R577). -/
  wrapped  : List Nat
  /-- Occurrences counted in this CCLK, by 8 b + k. -/
  inCclk   : Tab Nat
  deriving DecidableEq, Repr

/-- A flash operation of the host (R597, R623). -/
structure FlJob where
  op   : Nat
  addr : Nat
  len  : Nat
  /-- BOOT_FL_DATA as GO found it, for PROGRAM. -/
  data : Bytes
  deriving DecidableEq, Repr

/-- Start-up and the configuration image (R592-R623). -/
structure Boot where
  stage    : Nat
  fail     : Nat
  fallback : Bool
  slot     : Nat
  cause0   : Nat
  cause1   : Nat
  /-- Stages of the start sequence that have ended (R606). -/
  clockEnd  : Bool
  vaultEnd  : Bool
  flashEnd  : Bool
  imageEnd  : Bool
  verifyEnd : Bool
  keysEnd   : Bool
  imgSeq   : Nat
  us       : Nat
  digest   : BitVec 384
  life     : Nat
  jedec    : Nat
  density  : Nat
  flJob    : Option FlJob
  /-- A host operation waiting behind the device's own (R597). -/
  flWait   : Option FlJob
  flRes    : Nat
  flCause  : Nat
  /-- Image slot being loaded, not yet committed (R604): settings and table words by key, LINES records as
  (line key, entry bits, position states), in image order. -/
  shadow   : Tab Word
  lines    : List (Nat × BitVec 240 × Nat)
  deriving DecidableEq, Repr

/-- Power domains and temperature (R612-R618). -/
structure Power where
  dom      : Tab Domain
  now      : Int
  max      : Int
  throttle : Bool
  /-- Consecutive readings at or below the throttle end (R618). -/
  cool     : Nat
  deriving DecidableEq, Repr

/-- PCI Express, MSI-X, SMBus and access errors (R628-R657). -/
structure HostIf where
  up       : Bool
  speed    : Nat
  width    : Nat
  bme      : Bool
  msixEn   : Bool
  funcMask : Bool
  d3hot    : Bool
  /-- HI words latched by a LO read, by HI key (R634). -/
  latch    : Tab Nat
  accMore  : Bool
  accBar   : Bool
  accCause : Nat
  accOff   : Nat
  /-- MSI-X pending bits. -/
  pend     : Nat
  /-- C_v at the end of the last command, and vectors whose status or enables a write of this command reached (R636). -/
  cond     : Nat
  touch    : Nat
  /-- SMB_ADDR[1:0] as reset release sampled them (R645). -/
  smbAddr  : Nat
  /-- Base addresses as the host wrote them, by register, and the maximum payload size (R628). -/
  bars     : Tab Word
  payload  : Nat
  deriving DecidableEq, Repr

/-- The test access port (R647-R649). -/
structure Jtag where
  /-- Loaded instruction opcode. -/
  ir       : Nat
  preload  : List Bool
  hold     : Bool
  deriving DecidableEq, Repr

/-- What the manual keeps across a chip reset, and the pins (R240, R594, R596). -/
structure Board where
  otp      : Otp
  /-- Configuration flash: unlisted bytes read 0xFF. -/
  flash    : Tab Byte
  pins     : BoundaryIn
  deriving DecidableEq, Repr

/-- The device, whole. -/
structure Dev where
  words  : Tab Word
  clk    : Clock
  batch  : BatchUnit
  vault  : Vault
  floor  : Floor
  coach  : Coaches
  /-- Classification state by Dray (R317). -/
  cls    : Tab ClsDray
  tbm    : Tbm
  loft   : Loft
  ports  : Ports
  time   : Time
  pair   : Pair
  ridge  : Ridge
  pst    : Postilion
  whip   : Whip
  pmc    : Pmc
  boot   : Boot
  power  : Power
  host   : HostIf
  jtag   : Jtag
  board  : Board
  /-- PD00 holds the device in reset (R593, R661). -/
  hold   : Bool
  /-- TBM_STAT.HALT: a fatal event stopped the device (R363, R564). -/
  halt   : Bool
  /-- A boundary has come since the halt: no unit is assigned or processed, and the transmit lanes are idle (R363). -/
  still  : Bool
  /-- W1C bits set in the CCLK under way, and the RC counts asked for and added in it, for the same-CCLK rules (R14,
  R15). -/
  set1c  : Tab Nat
  addRc  : Tab (Nat × Nat)
  /-- The model's own counter of free values drawn (log entry 6). -/
  fresh  : Nat
  /-- What the last command handed out (log entry 7). -/
  out    : List Out
  deriving DecidableEq, Repr

/-- A board as the model takes it first: blank OTP, erased flash, undriven pins (log entry 5). -/
def Board.blank : Board := { otp := .blank, flash := [], pins := .quiet }

/-- The beat engine after a reset (R21, R46, R60). -/
def Clock.reset : Clock :=
  { count := 0, cclk := 0, ticks := 0, run := false, pllLock := false, det := false, voidAt := 0, voided := false, lats := [] }

def BatchUnit.reset : BatchUnit :=
  { open_ := [], ovf := false, sealed := [], lastSeq := 0, lastRes := .none, lastBeat := 0, any := false,
    doneSeq := 0, latUntil := 0 }

def Vault.reset : Vault :=
  { pufTries := 0, pufErrs := 0, pufMargin := false, pufFail := false, rootOk := false, pufCells := .off, puf := 0, root := 0, ckWrap := 0,
    slotMac := 0, ident := 0, lc := .vendor, epoch := 0, trngOk := false, trngRun := 0, engOk := false,
    resetReq := false, trusted := false, pairKey := 0, nonce := none, peerNonce := none, peerSerial := 0, peerPub := none, keyQ := [], peerCert := [],
    ck := [], ckBusy := false, ckSnap := [], ckPend := false, ckAsked := false, ckExh := false, ckValid := false, ckSlot := 0, ckSeq := 0,
    ckLast := 0, kek := [], kcv := 0, jobs := [], drv := [], drvWait := [], drvNew := [], drvDone := none,
    drvBeat := false, win := [], kwStat := [], pk := none, pkRes := 0, pkOut := [], lcRec := [], lcBusy := false, lcRes := 0,
    maskA := 0, maskB := 0, perm := 0, gen := false, sweep := false, sweepPos := 0 }

def Tbm.reset : Tbm :=
  { lines := [], raw := [], flips := [], keys := [], train := [], margin := [], ready := [], fail := [], calDue := [], scrub := [], wb := [],
    used := [], armed := [], dma := none, dmaRes := 0, dmaDone := 0 }

def Loft.reset : Loft :=
  { queues := [], relay := [], toPush := [], tx := [], hold := [], cause := [], fill := [], lastPush := [],
    lastStart := [], relayNext := [], pushed := 0 }

def Ports.reset : Ports :=
  { dyn := [], arrivals := [], verdicts := [], sfs := [], thatch := [], units := [], bytes := [], admits := [], learn := [] }

def Pair.reset : Pair :=
  { state := .fenced, partner := 7, intact := true, intactWas := true, settled := false, coast := false, yield_ := false, fence := false, role := false, fenceIn := false,
    roles := [], hb := false, recs := [], digests := [], snaps := [], own := [], changed := [], skew := 0, lat := 0, since := 0,
    phase := 0, pass := 0, left := 0, copied := [], nextIx := 0, gap := false, whole := false, taken := [], copyBuf := none,
    marked := [], sendIx := 0, sendQ := [], whipReq := false, whipRec := none,
    diffBeat := 0, events := [], astray := false, coastAt := 0, peerFloor := 0, arrive := 0, recFrom := 0, handed := false,
    byHand := false,
    noCmp := [], fwd := [], dlvSent := [], dlvs := [] }

def Ridge.reset : Ridge :=
  { lanes := [], linkUp := false, peerUp := false, absent := false, spread := 0, latest := 0, lastSet := none, data := false, quiet := 0, started := false, tx := none }

def Postilion.reset (kind src : Nat) : Postilion :=
  { src := [], alert := false, fatal := false, firstEv := none, rstKind := kind, rstSrc := src, chipReq := none,
    blockReq := [], inCclk := [], v4beat := none, v4req := false }

def Boot.reset : Boot :=
  { stage := 1, fail := 0, fallback := false, slot := 0, cause0 := 0, cause1 := 0, clockEnd := false, vaultEnd := false,
    flashEnd := false, imageEnd := false, verifyEnd := false, keysEnd := false, imgSeq := 0, us := 0, digest := 0, life := 0, jedec := 0, density := 0, flJob := none,
    flWait := none, flRes := 0, flCause := 0, shadow := [], lines := [] }

/-- Domains at reset release: PD00 and PD04 are on (R612), every other one is off. -/
def Power.reset : Power :=
  { dom := [(0, ⟨.on, false, 0, false⟩), (4, ⟨.on, false, 0, false⟩)], now := 0, max := 0, throttle := false, cool := 0 }

def HostIf.reset : HostIf :=
  { up := false, speed := 0, width := 0, bme := false, msixEn := false, funcMask := false, d3hot := false, latch := [],
    accMore := false, accBar := false, accCause := 0, accOff := 0, pend := 0, cond := 0, touch := 0,
    smbAddr := 0, bars := [], payload := 0 }

/-- The device at reset release: everything cleared but the OTP, the flash and the cause of the reset (R594). -/
def Dev.afterReset (b : Board) (kind src : Nat) : Dev :=
  { words := [], clk := .reset, batch := .reset, vault := .reset, floor := ⟨0, [none, none], none⟩, coach := ⟨[], [], []⟩,
    cls := [], tbm := .reset, loft := .reset, ports := .reset, time := ⟨[], [], [], false, 0, []⟩,
    pair := { Pair.reset with fence := b.pins.fence, role := b.pins.role },
    ridge := .reset, pst := .reset kind src, whip := ⟨[], 0, List.replicate 16 0#32, false⟩,
    pmc := ⟨[(15, 0), (16, 0), (17, 0)], [], [], [], []⟩, boot := .reset, power := .reset,
    host := { HostIf.reset with smbAddr := b.pins.straps }, jtag := ⟨1, [], false⟩, board := b,
    hold := false, halt := false, still := false, set1c := [], addRc := [], fresh := 0, out := [] }

/-- The machine: the device and the commands that wait, first in, first out. -/
structure State where
  dev     : Dev
  pending : List Instr
  deriving DecidableEq, Repr

/-- The machine right after reset release: a power-on start on a blank board (R593, R594), no command waiting. -/
def State.reset : State := { dev := .afterReset .blank 0 0, pending := [] }

end Sys2Proof.Machine
end

