-- ==== Sys2Proof/Machine/Ops.lean ====
section
/-! DEFINITION. The named operations over the state: sparse tables, register words and their fields, status bits and
counters with the same-CCLK rules (R13-R17), the clock, free values, the determinism record (R57) and the performance
counters (R575). -/

namespace Sys2Proof.Machine

/-- The value at a key. -/
def tget {α : Type} : Tab α → Nat → Option α
  | [], _ => none
  | (k, v) :: r, i => if k == i then some v else tget r i

/-- Put a value at a key, keeping keys rising. -/
def tset {α : Type} : Tab α → Nat → α → Tab α
  | [], i, x => [(i, x)]
  | (k, v) :: r, i, x => if k == i then (i, x) :: r else if i < k then (i, x) :: (k, v) :: r else (k, v) :: tset r i x

/-- Take a key out. -/
def tdel {α : Type} (t : Tab α) (i : Nat) : Tab α := t.filter fun (e : Nat × α) => e.1 != i

/-- The value at a key, or a default. -/
def tgetD {α : Type} (t : Tab α) (i : Nat) (d : α) : α := (tget t i).getD d

/-- Put a value, listing no key whose value is the default. -/
def tput {α : Type} [DecidableEq α] (t : Tab α) (d : α) (i : Nat) (x : α) : Tab α :=
  if x = d then tdel t i else tset t i x

/-- Put a natural number; a key not listed holds 0. -/
def tputN (t : Tab Nat) (i x : Nat) : Tab Nat := tput t 0 i x

/-- Keys rise strictly. -/
def tabRising {α : Type} : Tab α → Bool
  | [] => true
  | [_] => true
  | (k, _) :: (j, v) :: r => k < j && tabRising ((j, v) :: r)

/-! Words. -/

/-- The word at a key: what was written there, or its reset value (log entry 4). -/
def wordAt (m : Tab Word) (k : Nat) : Nat :=
  match tget m k with
  | some v => v.toNat
  | none => keyRst k

/-- Store a word; the reset value is not listed. -/
def setWord (m : Tab Word) (k v : Nat) : Tab Word := tput m (BitVec.ofNat 32 (keyRst k)) k (BitVec.ofNat 32 v)

/-- Replace the bits of `w` that `mask` names by those of `v`. -/
def mergeBits (w mask v : Nat) : Nat := ((w % 2 ^ 32) &&& (0xFFFFFFFF ^^^ (mask % 2 ^ 32))) ||| (v &&& mask)

/-- Word of a register. -/
def Dev.rd (d : Dev) (r : Reg) (ix : List Nat := []) : Nat := wordAt d.words (r.key ix)

/-- Field [hi:lo] of a register. -/
def Dev.fld (d : Dev) (r : Reg) (ix : List Nat) (hi lo : Nat) : Nat := bits (d.rd r ix) hi lo

/-- Bit of a register. -/
def Dev.flag (d : Dev) (r : Reg) (ix : List Nat) (i : Nat) : Bool := bit (d.rd r ix) i

/-- Store the word of a register. -/
def Dev.wr (d : Dev) (r : Reg) (ix : List Nat) (v : Nat) : Dev := { d with words := setWord d.words (r.key ix) v }

/-- Store one field of a register. -/
def Dev.wrFld (d : Dev) (r : Reg) (ix : List Nat) (hi lo v : Nat) : Dev :=
  d.wr r ix (mergeBits (d.rd r ix) ((2 ^ (hi + 1 - lo) - 1) <<< lo) (v <<< lo))

/-- Set status bits, and remember them for a clearing write of the same CCLK (R14). -/
def Dev.setStat (d : Dev) (r : Reg) (ix : List Nat) (mask : Nat) : Dev :=
  let k := r.key ix
  { d with words := setWord d.words k (wordAt d.words k ||| mask), set1c := tputN d.set1c k (tgetD d.set1c k 0 ||| mask) }

/-- Set one status bit. -/
def Dev.irq (d : Dev) (r : Reg) (i : Nat) (ix : List Nat := []) : Dev := d.setStat r ix (2 ^ i)

/-- Add to a 32-bit counter that holds at all ones, and remember the count of this CCLK (R15). -/
def Dev.count (d : Dev) (r : Reg) (ix : List Nat) (n : Nat := 1) : Dev :=
  let k := r.key ix
  let v := wordAt d.words k
  let a := tgetD d.addRc k (0, 0)
  let w := min (v + n) 0xFFFFFFFF
  { d with words := setWord d.words k w, addRc := tset d.addRc k (a.1 + n, a.2 + (w - v)) }

/-- Add to a field that holds at all ones. -/
def Dev.countFld (d : Dev) (r : Reg) (ix : List Nat) (hi lo : Nat) (n : Nat := 1) : Dev :=
  let k := r.key ix
  let v := d.fld r ix hi lo
  let a := tgetD d.addRc k (0, 0)
  let w := min (v + n) (2 ^ (hi + 1 - lo) - 1)
  { d.wrFld r ix hi lo w with addRc := tset d.addRc k (a.1 + n <<< lo, a.2 + (w - v) <<< lo) }

/-- Raise a peak field to a value (R113, R381). -/
def Dev.peak (d : Dev) (r : Reg) (ix : List Nat) (hi lo v : Nat) : Dev :=
  if d.fld r ix hi lo < v then d.wrFld r ix hi lo (min v (2 ^ (hi + 1 - lo) - 1)) else d

/-- Add to a 64-bit pair of words that wraps: `r` at `ix` low and `r'` at `ix'` high (R119, R236). -/
def Dev.add64 (d : Dev) (lo hi : Reg × List Nat) (n : Nat) : Dev :=
  let v := (d.rd lo.1 lo.2 + d.rd hi.1 hi.2 * 2 ^ 32 + n) % 2 ^ 64
  (d.wr lo.1 lo.2 (v % 2 ^ 32)).wr hi.1 hi.2 (v / 2 ^ 32)

/-! Clock. -/

/-- Absolute CCLK: 1,200 BEAT_COUNT + offset (R20). -/
def Dev.now (d : Dev) : Nat := d.clk.count * 1200 + d.clk.cclk

/-- BEAT_COUNT. -/
def Dev.beat (d : Dev) : Nat := d.clk.count

/-- The device is before beat 0. -/
def Dev.preRun (d : Dev) : Bool := !d.clk.run

/-- The device holds the sole or the active role (R45, R272). -/
def Dev.leads (d : Dev) : Bool := d.pair.state == .solo || d.pair.state == .active

/-- A device in STANDBY or SYNCING (R489). -/
def Dev.partnerState (d : Dev) : Bool := d.pair.state == .standby || d.pair.state == .syncing

/-- A standby or syncing device, which makes no arrival assignment of its own unless it coasts (R489, R509). -/
def Dev.follows (d : Dev) : Bool := d.partnerState && !d.pair.coast

/-- Hand something out (log entry 7). -/
def Dev.emit (d : Dev) (o : Out) : Dev := { d with out := d.out ++ [o] }

/-- Take the next free value (log entry 6). -/
def Dev.draw (d : Dev) : Dev × BitVec 512 := ({ d with fresh := d.fresh + 1 }, Config.draw d.fresh)

/-- Digest sources that an event entry leaves out of the comparison: the Dray that holds the coach's PN counter, or the coach
block with its NEXT_PN values (R228, R231, R487, R494). -/
def Dev.eventSources (d : Dev) (b : Bytes) : Nat :=
  let t := field b 0 1
  if t == 2 || t == 4 then 2 ^ (1 + d.fld .CO_ROUTE [field b 2 2] 4 0 / 8) else if t == 3 then 2 ^ 11 else 0

/-- The digests of beats k and k + 1 are compared without the sources that an event entry of beat k names (R231, R487). -/
def Dev.spareSources (d : Dev) (k : Nat) (b : Bytes) : Dev :=
  let m := d.eventSources b
  if m == 0 then d else { d with pair := { d.pair with noCmp := ((k, m) :: (k + 1, m) :: d.pair.noCmp).take 1024 } }

/-- Put an event entry into the boundary record of the beat under way: 16 bytes from TYPE on (R487). -/
def Dev.recEvent (d : Dev) (b : Bytes) : Dev :=
  if d.pair.state == .active then
    { d with pair := { d.pair with
      events := if d.pair.events.length < 256 then
        d.pair.events ++ [(b ++ List.replicate (16 - b.length) 0#8).take 16] else d.pair.events } }.spareSources d.beat b
  else d

/-- STAGE_STEP: 4,096 unless the image sets it (R220; log entry 8). -/
def stageStep : Nat :=
  match Config.stageStepLog with
  | none => 4096
  | some l => 2 ^ (8 + l % 9)

/-! The determinism record. -/

/-- A cause of R57 was seen: bit 4 debug write, 3 fault reaction, 2 throttle, 1 beat slip, 0 PLL (R57, R73). -/
def Dev.voidDet (d : Dev) (cause : Nat) : Dev :=
  let d := (d.irq .BEAT_DET_CAUSE cause).irq .BEAT_INT_STAT 3
  { d with clk := { d.clk with det := false, voided := true, voidAt := if d.clk.voided then d.clk.voidAt else d.clk.count } }

/-- DET becomes 1: the next cause is the first again (R58, R73). -/
def Dev.setDet (d : Dev) : Dev := { d with clk := { d.clk with det := true, voided := false } }

/-- FIXED_LAT as it was in beat b, which lies at most 15 beats back (R37). -/
def Dev.latIn (d : Dev) (b : Nat) : Nat :=
  match d.clk.lats.find? fun e => e.1 == b with
  | some e => e.2
  | none => d.fld .BEAT_SCHED [] 4 0

/-- The FIXED_LAT of beat n, which starts, joins those of the beats before it. -/
def Dev.noteLat (d : Dev) (n : Nat) : Dev :=
  { d with clk := { d.clk with lats := ((n, d.fld .BEAT_SCHED [] 4 0) :: d.clk.lats).take 16 } }

/-! Performance counters. -/

/-- Add to counter k of block b; a wrap sets OVF and marks the block for PMC_INT_STAT (R575, R577). -/
def Dev.pmcAdd (d : Dev) (b k n : Nat) : Dev :=
  let v := d.rd .PMC_CNT_LO [b, k] + d.rd .PMC_CNT_HI [b, k] * 2 ^ 32 + n
  let d := (d.wr .PMC_CNT_LO [b, k] (v % 2 ^ 32)).wr .PMC_CNT_HI [b, k] (v / 2 ^ 32 % 2 ^ 16)
  if 2 ^ 48 ≤ v then
    let d := d.irq .PMC_CNT_CFG 29 [b, k]
    { d with pmc := { d.pmc with wrapped := b :: d.pmc.wrapped } }
  else d

/-- Highest event code that R576 lists for block b. -/
def pmcCodes (b : Nat) : Nat := [0, 2, 3, 3, 6, 6, 6, 6, 6, 4, 5, 3, 3, 3, 3, 3, 2, 0, 1, 4].getD b 0

/-- Block b has a FILTER: DRY, LOFT, GATE and TIM (R575). -/
def pmcFiltered (b : Nat) : Bool := (4 ≤ b && b ≤ 7) || (10 ≤ b && b ≤ 12)

/-- FILTER f of block b lets events through: 127, or a port slot, of the Dray's own in a DRY block (R575, R591). -/
def pmcFilterOk (b f : Nat) : Bool :=
  !pmcFiltered b || f == 127 || (f < 64 && (!(4 ≤ b && b ≤ 7) || f % 32 / 8 == b - 4))

/-- Counter k of block b counts at all: EN, an event code that is listed, and a FILTER that lets events through (R575, R591). -/
def Dev.pmcLive (d : Dev) (b k : Nat) : Bool :=
  let c := d.rd .PMC_CNT_CFG [b, k]
  bit c 31 && bits c 7 0 ≤ pmcCodes b && pmcFilterOk b (bits c 27 21)

/-- Whether counter k of block b counts event `code` of port slot `slot` (R575). -/
def Dev.pmcTakes (d : Dev) (b k code : Nat) (slot : Option Nat) : Bool :=
  let c := d.rd .PMC_CNT_CFG [b, k]
  d.pmcLive b k && bits c 7 0 == code && (!pmcFiltered b || bits c 27 21 == 127 || slot == some (bits c 27 21))

/-- `n` occurrences of an event in this CCLK: at most 255 in edge mode, one in level mode (R575). -/
def Dev.pmc1 (d : Dev) (b code : Nat) (slot : Option Nat) (n k : Nat) : Dev :=
  if !d.pmcTakes b k code slot then d else
  let seen := tgetD d.pmc.inCclk (8 * b + k) 0
  let cap := if d.flag .PMC_CNT_CFG [b, k] 30 then 1 else 255
  let m := min n (cap - seen)
  { d with pmc := { d.pmc with inCclk := tputN d.pmc.inCclk (8 * b + k) (seen + m) } }.pmcAdd b k m

/-- `n` occurrences of event `code` of block b, at the eight counters (R575, R576). -/
def Dev.pmcEvent (d : Dev) (b code : Nat) (slot : Option Nat := none) (n : Nat := 1) : Dev :=
  (List.range 8).foldl (fun d k => d.pmc1 b code slot n k) d

/-- Counter k of block b as the CCLK under way began (R578). -/
def Dev.pmcBegan (d : Dev) (b k : Nat) : Nat :=
  (d.rd .PMC_CNT_LO [b, k] + d.rd .PMC_CNT_HI [b, k] * 2 ^ 32 + 2 ^ 48 - tgetD d.pmc.inCclk (8 * b + k) 0) % 2 ^ 48

/-- A write has set one half of counter k of block b, which stood at `v` as the CCLK began: what it adds in this CCLK is lost
(R578). -/
def Dev.pmcFreeze (d : Dev) (hi : Bool) (v b k : Nat) : Dev :=
  let d := if hi then d.wr .PMC_CNT_LO [b, k] (v % 2 ^ 32) else d.wr .PMC_CNT_HI [b, k] (v / 2 ^ 32)
  { d with pmc := { d.pmc with inCclk := tputN d.pmc.inCclk (8 * b + k) 255 } }

/-- `n` occurrences of event `code` of block b, each in a CCLK of its own: those of a command that stands for many CCLK
(R575, R576). -/
def Dev.pmcSpread (d : Dev) (b code n : Nat) (slot : Option Nat := none) : Dev :=
  (List.range 8).foldl (fun d k => if n != 0 && d.pmcTakes b k code slot then d.pmcAdd b k n else d) d

/-- A written value as the register stores it: three fields take the nearest value in range (R377, R627). -/
def clampWrite (r : Reg) (v : Nat) : Nat :=
  match r with
  | .TBM_SCRUB => min (bits v 3 0) 8
  | .TBM_CAL => min (bits v 4 0) 20
  | .PWR_THERM => max 60 (min 120 (bits v 15 8)) * 2 ^ 8
  | _ => v

/-! Batch store. -/

/-- Field writes an entry counts as (R44, R273, R637). -/
def entrySize : Entry → Nat
  | .word _ _ => 1
  | .dlv _ => 16

/-- Field writes of the open batch. -/
def Dev.openSize (d : Dev) : Nat := (d.batch.open_.map entrySize).sum

/-- Field writes held in all (R44). -/
def Dev.storeSize (d : Dev) : Nat := d.openSize + ((d.batch.sealed.map fun b => (b.entries.map entrySize).sum)).sum

/-- Whether two entries are for the same target, so that the later replaces the earlier (R43, R273). -/
def entrySame : Entry → Entry → Bool
  | .word k _, .word j _ => k == j
  | .dlv a, .dlv b => if a.kind == 1 then b.kind == 1 && a.target == b.target
                      else (b.kind == 2 || b.kind == 3) && a.target == b.target
  | _, _ => false

/-- Whether the open batch can take an entry (R44). -/
def Dev.hasRoom (d : Dev) (e : Entry) : Bool :=
  d.batch.open_.any (entrySame e) || d.storeSize + entrySize e ≤ 16384

/-- Put an entry into the open batch, in the place of an earlier one for its target, or lose it (R43, R44). -/
def Dev.stage (d : Dev) (e : Entry) : Dev :=
  if d.batch.open_.any (entrySame e) then
    { d with batch := { d.batch with open_ := d.batch.open_.map fun x => if entrySame e x then e else x } }
  else if d.storeSize + entrySize e ≤ 16384 then { d with batch := { d.batch with open_ := d.batch.open_ ++ [e] } }
  else { d with batch := { d.batch with ovf := true } }

/-- Note a delivery of the open batch for the partner, in the place of an earlier one for its target, while the partner is
trusted (R273, R274; log entry 20). -/
def Dev.forwardDelivery (d : Dev) (v : Delivery) : Dev :=
  if d.pair.state == .active && d.vault.trusted then
    { d with pair := { d.pair with
      dlvSent := d.pair.dlvSent ++ [v],
      dlvs := (d.pair.dlvs.filter fun e => e.1.isSome || !entrySame (.dlv v) (.dlv e.2)) ++ [(none, v)] } }
  else d

/-- The deliveries of a batch. -/
def deliveriesOf (l : List Entry) : List Delivery := l.filterMap fun e => match e with | .dlv v => some v | _ => none

/-- The open batch `l` is accepted with apply-beat `a`: its deliveries still to forward belong to it, and those staged before this
device was the active of a trusted pair are forwarded too (R274). -/
def Dev.sealDeliveries (d : Dev) (l : List Entry) (a : Nat) : Dev :=
  let late := if d.pair.state == .active && d.vault.trusted then (deliveriesOf l).filter fun v => !d.pair.dlvSent.contains v else []
  { d with pair := { d.pair with
    dlvSent := [], dlvs := (d.pair.dlvs.map fun e => (some (e.1.getD a), e.2)) ++ late.map fun v => (some a, v) } }

/-- The open batch is discarded with its deliveries (R273). -/
def Dev.forgetDeliveries (d : Dev) : Dev :=
  { d with pair := { d.pair with dlvSent := [], dlvs := d.pair.dlvs.filter fun e => e.1.isSome } }

/-- Empty the open batch (R50). -/
def Dev.discardOpen (d : Dev) : Dev := { d with batch := { d.batch with open_ := [], ovf := false } }

/-! Coaches, ports and other records that are absent until touched. -/

/-- Running state of a coach. -/
def Dev.co (d : Dev) (c : Nat) : CoachDyn := tgetD d.coach.dyn c .init

/-- The check word of an OTP item fits (R240). -/
def otpFits (o : Otp) (i : OtpItem) : Bool := !o.unfit.contains i

/-- The OTP as the device uses it: an item that is not valid counts as unprogrammed (R240; log entry 69). -/
def otpHeld (o : Otp) : Otp :=
  { o with
    serial := if otpFits o .serial then o.serial else 0,
    pufCheck := if otpFits o .pufCheck then o.pufCheck else 0,
    pufHelper := if otpFits o .pufHelper then o.pufHelper else [],
    vendorHash := if otpFits o .vendorHash then o.vendorHash else 0,
    caHash := if otpFits o .caHash then o.caHash else 0,
    cert := if otpFits o .cert then o.cert else [],
    lcOwner := o.lcOwner && otpFits o .lcOwner,
    lcReturn := o.lcReturn && otpFits o .lcReturn,
    epochs := ((List.range o.epochs).filter fun i => otpFits o (.epoch (i + 1))).length,
    ownerHash := o.ownerHash.map fun e => if e.2.2 then e else (e.1, 0, false) }

/-- The device's OTP, of valid items. -/
def Dev.otp (d : Dev) : Otp := otpHeld d.board.otp

/-- The Ridge lost lock: trust and the exchange end (R275). -/
def Dev.linkLost (d : Dev) : Dev :=
  { d with vault := { d.vault with trusted := false, nonce := none, peerNonce := none, peerPub := none, keyQ := [], peerCert := [], pairKey := 0 } }

/-- Two contents of a key slot between which it was loaded or cleared (R255). -/
def slotMoved (a b : Option Slot) : Bool :=
  a.map (fun s => (s.key, s.salt, s.stage)) != b.map fun s => (s.key, s.salt, s.stage)

/-- Slot addresses of a coach: two in a row (R207; log entry 69). -/
def slotAddr (c b : Nat) : Nat := 2 * c + b

/-- Slot addresses loaded or cleared in the running sweep, when the slots of coach c become those of `x` (R255). -/
def Dev.remask (d : Dev) (c : Nat) (x : CoachDyn) : List Nat :=
  if !d.vault.sweep then d.coach.remasked else
  let y := d.co c
  d.coach.remasked ++ (if slotMoved y.slotA x.slotA then [slotAddr c 0] else []) ++
    (if slotMoved y.slotB x.slotB then [slotAddr c 1] else [])

/-- Put the running state of a coach. -/
def Dev.setCo (d : Dev) (c : Nat) (x : CoachDyn) : Dev :=
  { d with coach := { d.coach with dyn := tput d.coach.dyn .init c x, remasked := d.remask c x } }

/-- Change the running state of a coach. -/
def Dev.modCo (d : Dev) (c : Nat) (f : CoachDyn → CoachDyn) : Dev := d.setCo c (f (d.co c))

/-- Counter w (8-15) of the statistics of a coach (R236). -/
def Dev.coCount (d : Dev) (c w : Nat) (n : Nat := 1) : Dev := d.count .CST_CNT [c, w - 8] n

/-- 64-bit counter p (0 OUT_UNITS, 1 OUT_OCTETS, 2 IN_OK, 3 IN_OCTETS) of a coach (R236). -/
def Dev.coWide (d : Dev) (c p n : Nat) : Dev := d.add64 (.CST_WIDE, [c, 2 * p]) (.CST_WIDE, [c, 2 * p + 1]) n

/-- State of a port slot, 0-31 client and 32-63 line (R386). -/
def Dev.port (d : Dev) (p : Nat) : PortDyn := tgetD d.ports.dyn p .init

/-- Put the state of a port slot. -/
def Dev.setPort (d : Dev) (p : Nat) (x : PortDyn) : Dev :=
  { d with ports := { d.ports with dyn := tput d.ports.dyn .init p x } }

/-- The Postilion's state of a source. -/
def Dev.src (d : Dev) (s : Nat) : SrcDyn := tgetD d.pst.src s .init

/-- Put the Postilion's state of a source. -/
def Dev.setSrc (d : Dev) (s : Nat) (x : SrcDyn) : Dev := { d with pst := { d.pst with src := tput d.pst.src .init s x } }

/-- State of power domain x (R614). -/
def Dev.domain (d : Dev) (x : Nat) : Domain := tgetD d.power.dom x ⟨.off, false, 0, false⟩

/-- Put the state of a power domain. -/
def Dev.setDomain (d : Dev) (x : Nat) (v : Domain) : Dev :=
  { d with power := { d.power with dom := tput d.power.dom ⟨.off, false, 0, false⟩ x v } }

/-- A domain in use (R614, R616): ON, or DRAINING and still powered. -/
def Dev.domOn (d : Dev) (x : Nat) : Bool := (d.domain x).state == .on

/-- Apply a step to each index below n, in rising order. -/
def forEach {σ : Type} (n : Nat) (s : σ) (f : σ → Nat → σ) : σ := (List.range n).foldl f s

end Sys2Proof.Machine
end

