-- ==== Sys2Proof/Machine/Code.lean ====
section
/-! DEFINITION. The 8b/10b code of the Ridge (R525): code groups of ten bits, the bit sent first the most significant here, with
their running disparity. -/

namespace Sys2Proof.Machine

/-- Sub-blocks of six bits for the values of EDCBA, at negative running disparity. -/
def sixNeg : List Nat :=
  [0b100111, 0b011101, 0b101101, 0b110001, 0b110101, 0b101001, 0b011001, 0b111000, 0b111001, 0b100101, 0b010101, 0b110100,
   0b001101, 0b101100, 0b011100, 0b010111, 0b011011, 0b100011, 0b010011, 0b110010, 0b001011, 0b101010, 0b011010, 0b111010,
   0b110011, 0b100110, 0b010110, 0b110110, 0b001110, 0b101110, 0b011110, 0b101011]

/-- Sub-blocks of four bits for the values of HGF, at negative running disparity. -/
def fourNeg : List Nat := [0b1011, 0b1001, 0b0101, 0b1100, 0b1101, 0b1010, 0b0110, 0b1110]

/-- Number of 1 bits among the low n of a number. -/
def onesIn (n v : Nat) : Nat := ((List.range n).filter fun i => bit v i).length

/-- The running disparity is positive after a sub-block of n bits. -/
def rdAfter (n s : Nat) (rd : Bool) : Bool :=
  let k := onesIn n s
  if n < 2 * k || (n == 6 && s == 0b000111) || (n == 4 && s == 0b0011) then true
  else if 2 * k < n || (n == 6 && s == 0b111000) || (n == 4 && s == 0b1100) then false
  else rd

/-- The six-bit sub-block of x. -/
def sixOf (x : Nat) (rd : Bool) : Nat :=
  let s := sixNeg.getD x 0
  if rd && (onesIn 6 s != 3 || x == 7) then 63 - s else s

/-- The four-bit sub-block of y after the sub-block of x, its alternative for 7 where five equal bits would follow one another. -/
def fourOf (y x : Nat) (rd : Bool) : Nat :=
  let alt := y == 7 && (if rd then x == 11 || x == 13 || x == 14 else x == 17 || x == 18 || x == 20)
  let s := if alt then 0b0111 else fourNeg.getD y 0
  if rd && (onesIn 4 s != 2 || y == 3) then 15 - s else s

/-- The code group of a data byte. -/
def groupOf (b : Byte) (rd : Bool) : CodeGroup :=
  let x := b.toNat % 32
  let s := sixOf x rd
  BitVec.ofNat 10 (s * 16 + fourOf (b.toNat / 32) x (rdAfter 6 s rd))

/-- K28.5 (R528). -/
def comma (rd : Bool) : CodeGroup := if rd then 0b1100000101 else 0b0011111010

/-- Running disparity after a code group. -/
def groupRd (g : CodeGroup) (rd : Bool) : Bool := rdAfter 4 (g.toNat % 16) (rdAfter 6 (g.toNat / 16) rd)

/-- The data byte of a code group at a running disparity, when it is one of the table. -/
def dataOf (g : CodeGroup) (rd : Bool) : Option Byte :=
  let s := g.toNat / 16
  (List.range 32).findSome? fun x =>
    if sixOf x rd != s then none else
    ((List.range 8).find? fun y => fourOf y x (rdAfter 6 s rd) == g.toNat % 16).map fun y => BitVec.ofNat 8 (y * 32 + x)

/-- A code group that counts in CG_ERR: outside the table, of the wrong running disparity, or a control code group other than
K28.5 (R525). -/
def badGroup (g : CodeGroup) (rd : Bool) : Bool := (dataOf g rd).isNone && g != comma rd

/-- The byte a code group is taken for: the table's at either running disparity, and a free value for a code group in neither. -/
def byteOf (g : CodeGroup) (rd : Bool) : Byte := ((dataOf g rd).orElse fun _ => dataOf g !rd).getD (Config.badGroup g)

/-- Code groups as received: the byte of each and whether it counts in CG_ERR, and the running disparity after them. -/
def readGroups (rd : Bool) : List CodeGroup → List (Byte × Bool) × Bool
  | [] => ([], rd)
  | g :: l =>
    let r := readGroups (groupRd g rd) l
    ((byteOf g rd, badGroup g rd) :: r.1, r.2)

/-- Bytes as sent, and the running disparity after them. -/
def writeGroups (rd : Bool) : Bytes → List CodeGroup × Bool
  | [] => ([], rd)
  | b :: l =>
    let g := groupOf b rd
    let r := writeGroups (groupRd g rd) l
    (g :: r.1, r.2)

/-- Running disparity after bytes as sent; a zero byte leaves it as it is. -/
def rdSent (rd : Bool) (l : Bytes) : Bool := l.foldl (fun rd b => if b == 0 then rd else groupRd (groupOf b rd) rd) rd

/-- Code groups with every bit inverted where a lane's polarity says so (R527). -/
def polarity (inv : Bool) (l : List CodeGroup) : List CodeGroup := if inv then l.map (· ^^^ 0x3FF#10) else l

/-- The marker: K28.5 at a running disparity, then D21.5 three times (R528). -/
def markerOf (rd : Bool) : List CodeGroup := comma rd :: List.replicate 3 (groupOf 0xB5 !rd)

/-- Four code groups are the marker (R538). -/
def isMarker (l : List CodeGroup) : Bool := l == markerOf false || l == markerOf true

end Sys2Proof.Machine
end

