-- ==== Sys2Proof/Machine/Aes.lean ====
section
/-! DEFINITION. AES-256 (FIPS 197) and the modes the manual builds on it: AES-CMAC and the derivation of R210 and R246,
the key wrap of RFC 3394 (R271, R278), GCM (R130, R131, R170) and the line encryption of R357. -/

namespace Sys2Proof.Machine

/-- The substitution box, byte x in bits [8x+7:8x]. -/
def sboxBits : Nat :=
  0x16bb54b00f2d99416842e6bf0d89a18cdf2855cee9871e9b948ed9691198f8e19e1dc186b95735610ef6034866b53e708a8bbd4b1f74dde8c6b4a61c2e2578ba08ae7a65eaf4566ca94ed58d6d37c8e779e4959162acd3c25c2406490a3a32e0db0b5ede14b8ee4688902a22dc4f816073195d643d7ea7c41744975fec130ccdd2f3ff1021dab6bcf5389d928f40a351a89f3c507f02f94585334d43fbaaefd0cf584c4a39becb6a5bb1fc20ed00d153842fe329b3d63b52a05a6e1b1a2c830975b227ebe28012079a059618c323c7041531d871f1e5a534ccf73f362693fdb7c072a49cafa2d4adf04759fa7dc982ca76abd7fe2b670130c56f6bf27b777c63

/-- The inverse substitution box, laid out alike. -/
def invSboxBits : Nat :=
  0x7d0c2155631469e126d677ba7e042b17619953833cbbebc8b0f52aae4d3be0a0ef9cc9939f7ae52d0d4ab519a97f51605fec8027591012b131c7078833a8dd1ff45acd78fec0db9a2079d2c64b3e56fc1bbe18aa0e62b76f89c5291d711af1476edf751ce837f9e28535ade72274ac9673e6b4f0cecff297eadc674f4111913a6b8a130103bdafc1020f3fca8f1e2cd00645b3b80558e4f70ad3bc8c00abd890849d8da75746155edab9edfd5048706c92b6655dcc5ca4d41698688664f6f87225d18b6d49a25b76b224d92866a12e084ec3fa420b954cee3d23c2a632947b54cbe9dec444438e3487ff2f9b8239e37cfbd7f3819ea340bf38a53630d56a0952

/-- Substitute one byte. -/
def subByte (x : Nat) : Nat := bits sboxBits (8 * x + 7) (8 * x)

/-- Substitute one byte backwards. -/
def invSubByte (x : Nat) : Nat := bits invSboxBits (8 * x + 7) (8 * x)

/-- Multiply by x in the field of AES. -/
def xtime (a : Nat) : Nat := if a < 128 then 2 * a else (2 * a) ^^^ 0x11B

/-- Multiply by a constant below 16. -/
def gfMul (c a : Nat) : Nat :=
  (if c.testBit 0 then a else 0) ^^^ (if c.testBit 1 then xtime a else 0) ^^^
  (if c.testBit 2 then xtime (xtime a) else 0) ^^^ (if c.testBit 3 then xtime (xtime (xtime a)) else 0)

/-- Substitute the four bytes of a word. -/
def subWord (w : Nat) : Nat :=
  [3, 2, 1, 0].foldl (fun a i => a * 256 + subByte (bits w (8 * i + 7) (8 * i))) 0

/-- The 60 words of the AES-256 key schedule. -/
def aesSchedule (key : BitVec 256) : List Nat :=
  let k0 := (List.range 8).map fun i => bits key.toNat (255 - 32 * i) (224 - 32 * i)
  ((List.range 52).foldl (fun (ws : List Nat) j =>
    let i := j + 8
    let p := ws.headD 0
    let t := if i % 8 == 0 then subWord (((p <<< 8) ||| (p >>> 24)) % 2 ^ 32) ^^^ (2 ^ (i / 8 - 1)) <<< 24
             else if i % 8 == 4 then subWord p else p
    (ws.getD 7 0 ^^^ t) :: ws) k0.reverse).reverse

/-- The 15 round keys, as bytes. -/
def roundKeys (key : BitVec 256) : List (List Nat) :=
  let ws := aesSchedule key
  (List.range 15).map fun r => ((ws.drop (4 * r)).take 4).flatMap fun w => [w >>> 24, bits w 23 16, bits w 15 8, bits w 7 0]

/-- XOR of two byte lists. -/
def xorL (a b : List Nat) : List Nat := List.zipWith (· ^^^ ·) a b

/-- Row r of the state moves r columns to the left; byte 4c + r is row r of column c. -/
def shiftRows (s : List Nat) : List Nat := (List.range 16).map fun i => s.getD ((i + 4 * (i % 4)) % 16) 0

/-- Row r of the state moves r columns to the right. -/
def invShiftRows (s : List Nat) : List Nat := (List.range 16).map fun i => s.getD ((i + 12 * (i % 4)) % 16) 0

/-- Multiply each column by the circulant of the coefficients. -/
def mixWith (m : List Nat) (s : List Nat) : List Nat :=
  (List.range 16).map fun i =>
    (List.range 4).foldl (fun a j => a ^^^ gfMul (m.getD ((j + 4 - i % 4) % 4) 0) (s.getD (4 * (i / 4) + j) 0)) 0

/-- The 16 bytes of a block. -/
def blockBytes (b : BitVec 128) : List Nat := (List.range 16).map fun i => bits b.toNat (127 - 8 * i) (120 - 8 * i)

/-- The block of 16 bytes. -/
def blockOfBytes (s : List Nat) : BitVec 128 := BitVec.ofNat 128 (s.foldl (fun a x => a * 256 + x) 0)

/-- AES-256 encryption of one block. -/
def aesEnc (key : BitVec 256) (b : BitVec 128) : BitVec 128 :=
  let rk := roundKeys key
  let s := (List.range 13).foldl
    (fun s r => xorL (mixWith [2, 3, 1, 1] (shiftRows (s.map subByte))) (rk.getD (r + 1) [])) (xorL (blockBytes b) (rk.headD []))
  blockOfBytes (xorL (shiftRows (s.map subByte)) (rk.getD 14 []))

/-- AES-256 decryption of one block. -/
def aesDec (key : BitVec 256) (b : BitVec 128) : BitVec 128 :=
  let rk := roundKeys key
  let s := (List.range 13).foldl
    (fun s r => mixWith [14, 11, 13, 9] (xorL ((invShiftRows s).map invSubByte) (rk.getD (13 - r) [])))
    (xorL (blockBytes b) (rk.getD 14 []))
  blockOfBytes (xorL ((invShiftRows s).map invSubByte) (rk.headD []))

/-- Doubling of a 128-bit value in CMAC's field (R357). -/
def dbl128 (v : BitVec 128) : BitVec 128 := if v.msb then (v <<< 1) ^^^ 0x87#128 else v <<< 1

/-- Bytes as a block, filled with zeros on the right. -/
def padBlock (m : Bytes) : BitVec 128 := BitVec.ofNat 128 (natOfBytes ((m ++ List.replicate 16 0#8).take 16))

/-- Cut a byte string into 16-byte pieces; the fuel is its length. -/
def pieces16 : Nat → Bytes → List Bytes
  | 0, _ => []
  | n + 1, m => if m.isEmpty then [] else m.take 16 :: pieces16 n (m.drop 16)

/-- AES-CMAC (NIST SP 800-38B). -/
def cmac (key : BitVec 256) (m : Bytes) : BitVec 128 :=
  let k1 := dbl128 (aesEnc key 0#128)
  let ps := pieces16 m.length m
  let last := ps.getLastD []
  let fin := if last.length == 16 then padBlock last ^^^ k1 else padBlock (last ++ [0x80#8]) ^^^ dbl128 k1
  aesEnc key ((ps.dropLast.foldl (fun x p => aesEnc key (x ^^^ padBlock p)) 0#128) ^^^ fin)

/-- ASCII bytes of a label. -/
def ascii (s : String) : Bytes := s.toList.map fun c => BitVec.ofNat 8 c.toNat

/-- Block i of the counter-mode derivation: i, label, 0x00, context (R210, R246). -/
def kdfBlock (parent : BitVec 256) (label : String) (ctx : Bytes) (i : Nat) : BitVec 128 :=
  cmac parent ([BitVec.ofNat 8 i] ++ ascii label ++ [0#8] ++ ctx)

/-- A 256-bit key of the derivation: t[1] and t[2] (R246). -/
def kdfKey (parent : BitVec 256) (label : String) (ctx : Bytes) : BitVec 256 :=
  kdfBlock parent label ctx 1 ++ kdfBlock parent label ctx 2

/-- Key and salt of a derived stage (R210). -/
def deriveStage (ck : BitVec 256) (coach stage : Nat) : BitVec 256 × BitVec 96 :=
  let ctx := bytesOfNat 2 coach ++ bytesOfNat 4 stage
  (kdfKey ck "FIONESTG" ctx, (kdfBlock ck "FIONESTG" ctx 3).extractLsb' 32 96)

/-- RFC 3394 unwrap; the plaintext and the value that must be the default initial value. -/
def unwrapKw (kek : BitVec 256) (c : Bytes) : BitVec 64 × Bytes :=
  let n := c.length / 8 - 1
  let semi := (List.range (n + 1)).map fun i => BitVec.ofNat 64 (natOfBytes ((c.drop (8 * i)).take 8))
  let r := (List.range (6 * n)).foldl (fun (ar : BitVec 64 × List (BitVec 64)) k =>
    let t := 6 * n - k
    let i := (t - 1) % n
    let b := aesDec kek ((ar.1 ^^^ BitVec.ofNat 64 t) ++ ar.2.getD i 0#64)
    (b.extractLsb' 64 64, ar.2.set i (b.extractLsb' 0 64))) (semi.headD 0#64, semi.drop 1)
  (r.1, r.2.flatMap fun x => bytesOfNat 8 x.toNat)

/-- RFC 3394 wrap under the default initial value (R271, R278). -/
def wrapKw (kek : BitVec 256) (p : Bytes) : Bytes :=
  let n := p.length / 8
  let semi := (List.range n).map fun i => BitVec.ofNat 64 (natOfBytes ((p.drop (8 * i)).take 8))
  let r := (List.range (6 * n)).foldl (fun (ar : BitVec 64 × List (BitVec 64)) k =>
    let i := k % n
    let b := aesEnc kek (ar.1 ++ ar.2.getD i 0#64)
    (b.extractLsb' 64 64 ^^^ BitVec.ofNat 64 (k + 1), ar.2.set i (b.extractLsb' 0 64))) (0xA6A6A6A6A6A6A6A6#64, semi)
  (r.1 :: r.2).flatMap fun x => bytesOfNat 8 x.toNat

/-- Product in the field of GHASH. -/
def ghashMul (x y : BitVec 128) : BitVec 128 :=
  ((List.range 128).foldl (fun (zv : BitVec 128 × BitVec 128) i =>
    (if x.getMsbD i then zv.1 ^^^ zv.2 else zv.1,
     if zv.2.getLsbD 0 then (zv.2 >>> 1) ^^^ (0xE1#128 <<< 120) else zv.2 >>> 1)) (0#128, y)).1

/-- GHASH over padded additional data, padded ciphertext and the lengths. -/
def ghash (h : BitVec 128) (aad ct : Bytes) : BitVec 128 :=
  let bs := (pieces16 aad.length aad).map padBlock ++ (pieces16 ct.length ct).map padBlock ++
    [BitVec.ofNat 64 (8 * aad.length) ++ BitVec.ofNat 64 (8 * ct.length)]
  bs.foldl (fun y b => ghashMul (y ^^^ b) h) 0#128

/-- Counter-mode stream over a byte string, starting at counter block `iv ++ 2`. -/
def ctrXor (key : BitVec 256) (iv : BitVec 96) (m : Bytes) : Bytes :=
  (List.zip (List.range m.length) (pieces16 m.length m)).flatMap fun ip =>
    List.zipWith (· ^^^ ·) ip.2 (bytesOfNat 16 (aesEnc key (iv ++ BitVec.ofNat 32 (ip.1 + 2))).toNat)

/-- GCM tag over additional data and ciphertext. -/
def gcmTag (key : BitVec 256) (iv : BitVec 96) (aad ct : Bytes) : Bytes :=
  bytesOfNat 16 (ghash (aesEnc key 0#128) aad ct ^^^ aesEnc key (iv ++ 1#32)).toNat

end Sys2Proof.Machine
end

