-- ==== Sys2Proof/Machine/Crc.lean ====
section
/-! DEFINITION. The cyclic codes of the manual: the CRC-8 of a delimiter (R168), the CRC-16 of R161, the IEEE 802.3 CRC-32
(R403, R486, R530), the CRC-64 of R494, and the (72,64) extended Hamming code of R359. -/

namespace Sys2Proof.Machine

/-- One byte through a CRC that takes bits most significant first. -/
def crcByteMsb (w poly c : Nat) (b : Byte) : Nat :=
  (List.range 8).foldl (fun c _ => if c.testBit (w - 1) then ((c <<< 1) ^^^ poly) % 2 ^ w else (c <<< 1) % 2 ^ w)
    (c ^^^ (b.toNat <<< (w - 8)))

/-- CRC-8, generator x^8 + x^2 + x + 1, initial value 0 (R168). -/
def crc8 (m : Bytes) : Nat := m.foldl (crcByteMsb 8 0x07) 0

/-- The CRC-16 of R161. -/
def crc16 (m : Bytes) : Nat := m.foldl (crcByteMsb 16 0x1021) 0xFFFF

/-- The CRC-64 of R494. -/
def crc64 (m : Bytes) : Nat := m.foldl (crcByteMsb 64 0x42F0E1EBA9EA3693) (2 ^ 64 - 1) ^^^ (2 ^ 64 - 1)

/-- One byte through the reflected IEEE 802.3 CRC-32. -/
def crc32Byte (c : Nat) (b : Byte) : Nat :=
  (List.range 8).foldl (fun c _ => if c.testBit 0 then (c >>> 1) ^^^ 0xEDB88320 else c >>> 1) (c ^^^ b.toNat)

/-- The IEEE 802.3 CRC-32 of a byte string. -/
def crc32 (m : Bytes) : Nat := m.foldl crc32Byte 0xFFFFFFFF ^^^ 0xFFFFFFFF

/-- The four bytes a CRC-32 is sent as, least significant byte first (IEEE 802.3). -/
def fcsBytes (c : Nat) : Bytes := (bytesOfNat 4 c).reverse

/-- The FCS of a frame's bytes, as sent. -/
def fcsOf (m : Bytes) : Bytes := fcsBytes (crc32 m)

/-- Positions of a codeword that carry data: 3 to 71 except the powers of two, in order (R359). -/
def codeDataPos : List Nat :=
  ((List.range 72).drop 3).filter fun p => p != 4 && p != 8 && p != 16 && p != 32 && p != 64

/-- The 72-bit codeword of a 64-bit data word (R359). -/
def codeEncode (x : Nat) : Nat :=
  let d := (List.zip codeDataPos (List.range 64)).foldl (fun a pj => if x.testBit pj.2 then a ||| 2 ^ pj.1 else a) 0
  let c := (List.range 7).foldl (fun a i =>
    if (codeDataPos.filter fun p => p.testBit i && d.testBit p).length % 2 == 1 then a ||| 2 ^ 2 ^ i else a) d
  if ((List.range 72).filter c.testBit).length % 2 == 1 then c + 1 else c

/-- What a read of a codeword gives (R360). -/
inductive CodeResult where
  | clean (x : Nat)
  | corrected (x : Nat)
  | bad
  deriving DecidableEq, Repr

/-- The data bits of a codeword. -/
def codeData (w : Nat) : Nat :=
  (List.zip codeDataPos (List.range 64)).foldl (fun a pj => if w.testBit pj.1 then a ||| 2 ^ pj.2 else a) 0

/-- Syndrome: the XOR of the positions that hold a 1 (R359). -/
def codeSyndrome (w : Nat) : Nat := (List.range 72).foldl (fun a p => if w.testBit p then a ^^^ p else a) 0

/-- Decode a 72-bit codeword: clean, one error corrected, or uncorrectable (R360). -/
def codeDecode (w : Nat) : CodeResult :=
  let s := codeSyndrome w
  let odd := ((List.range 72).filter w.testBit).length % 2 == 1
  if odd then (if s < 72 then .corrected (codeData (w ^^^ 2 ^ s)) else .bad)
  else if s == 0 then .clean (codeData w) else .bad

end Sys2Proof.Machine
end

