-- ==== Sys2Proof/Machine/Ports.lean ====
section
/-! DEFINITION. Lanes, ports and their settings: which slots are ports, at which rate, with which role, delay and counters
(R29, R75, R76, R84, R105-R119). -/

namespace Sys2Proof.Machine

/-- A slot of the line side (R386). -/
def isLine (p : Nat) : Bool := 32 ≤ p

/-- Number n of client port Cn or line port Ln. -/
def portNo (p : Nat) : Nat := p % 32

/-- Dray of a slot. -/
def drayOf (p : Nat) : Nat := portNo p / 8

/-- Port index of a slot in its Dray. -/
def portIx (p : Nat) : Nat := portNo p % 8

/-- Mode code of the slot's lane group (R75). -/
def Dev.modeOf (d : Dev) (p : Nat) : Nat :=
  if isLine p then d.fld .DRY_GROUP [drayOf p] 9 8 else d.fld .DRY_GROUP [drayOf p] 1 0

/-- Lanes per port of a mode (R75). -/
def lanesOf (m : Nat) : Nat := 2 ^ m

/-- Rate in Gbit/s of a mode (R75). -/
def rateOfMode (m : Nat) : Nat := 100 * 2 ^ m

/-- The slot is a port in the mode in effect (R76). -/
def Dev.exists_ (d : Dev) (p : Nat) : Bool := p < 64 && portIx p % lanesOf (d.modeOf p) == 0

/-- Rate of a port in Gbit/s. -/
def Dev.rate (d : Dev) (p : Nat) : Nat := rateOfMode (d.modeOf p)

/-- The register of the delays of a mode (R74). -/
def dlyReg (m : Nat) : Reg :=
  if m == 3 then .BEAT_DLY_800 else if m == 2 then .BEAT_DLY_400 else if m == 1 then .BEAT_DLY_200 else .BEAT_DLY_100

/-- D_in of a port (R29). -/
def Dev.dIn (d : Dev) (p : Nat) : Nat := d.fld (dlyReg (d.modeOf p)) [] 10 0

/-- D_out of a port (R29). -/
def Dev.dOut (d : Dev) (p : Nat) : Nat := d.fld (dlyReg (d.modeOf p)) [] 26 16

/-- Control word of a slot (R114, R116). -/
def Dev.ctl (d : Dev) (p : Nat) : Nat :=
  if isLine p then d.rd .DRY_LPORT_CTL [drayOf p, portIx p] else d.rd .DRY_CPORT_CTL [drayOf p, portIx p]

/-- EN of a slot. -/
def Dev.en (d : Dev) (p : Nat) : Bool := bit (d.ctl p) 31

/-- A line port with ROLE = RELAY (R84). -/
def Dev.relayRole (d : Dev) (p : Nat) : Bool := isLine p && bit (d.ctl p) 30

/-- A line port with PMODE = 1 (R116). -/
def Dev.thatchMode (d : Dev) (p : Nat) : Bool := isLine p && bit (d.ctl p) 29

/-- Slot of the client port that a DIRECT Thatch line port carries (R86). -/
def Dev.thatchClient (d : Dev) (p : Nat) : Nat := 8 * drayOf p + bits (d.ctl p) 18 16

/-- The Thatch line port bound to a client port, if one is (R85, R86). -/
def Dev.boundLine (d : Dev) (c : Nat) : Option Nat :=
  ((List.range 8).map fun i => 32 + 8 * drayOf c + i).find? fun p =>
    d.exists_ p && d.thatchMode p && !d.relayRole p && d.thatchClient p == c

/-- SerDes domain of a slot's lane group (R612). -/
def serdesDom (p : Nat) : Nat := if isLine p then 17 + drayOf p else 13 + drayOf p

/-- Outbound and Inbound pipe domains of Dray d (R612). -/
def obDom (d : Nat) : Nat := 5 + 2 * d
def ibDom (d : Nat) : Nat := 6 + 2 * d

/-- A port that may assign units: enabled, its link up in effect, its domains on (R105, R616). -/
def Dev.assigns (d : Dev) (p : Nat) : Bool :=
  d.exists_ p && d.en p && (d.port p).linkUp && d.domOn (serdesDom p) && d.domOn (obDom (drayOf p)) &&
  d.domOn (ibDom (drayOf p))

/-- LT_EN of a slot (R114, R116). -/
def Dev.ltEn (d : Dev) (p : Nat) : Bool := bit (d.ctl p) 28

/-- Polarity word of lane i of the port of a slot (R118). -/
def Dev.lanePol (d : Dev) (p i : Nat) : Nat :=
  d.rd (if isLine p then .DRY_LLANE else .DRY_CLANE) [drayOf p, (portIx p + i) % 8]

/-- What comes on lane i of a port: the lane number its markers carry and whether it is inverted; as wired straight where nothing
else has been presented (R79). -/
def laneIn (x : PortDyn) (i : Nat) : Nat × Bool := x.lanes.getD i (i, false)

/-- The lane on which PCS lane k of a port comes, as its markers tell (R79). -/
def Dev.laneOf (d : Dev) (p k : Nat) : Option Nat :=
  (List.range (lanesOf (d.modeOf p))).find? fun i => (laneIn (d.port p) i).1 == k

/-- The PCS finds each of its lanes on some lane of the port, and each lane in the polarity that RX_INV names: a port of several
lanes takes them in any order (R79). -/
def Dev.lanesFit (d : Dev) (p : Nat) : Bool :=
  (List.range (lanesOf (d.modeOf p))).all fun i =>
    (d.laneOf p i).isSome && (laneIn (d.port p) i).2 == bit (d.lanePol p i) 0

/-- PCS_LOCK of a port (R79, R115). -/
def Dev.pcsLock (d : Dev) (p : Nat) : Bool := (d.port p).pcs && d.lanesFit p

/-- The conditions of R106 as they stand. -/
def Dev.linkCond (d : Dev) (p : Nat) : Bool :=
  let x := d.port p
  d.exists_ p && d.pcsLock p && x.fec && (!d.ltEn p || x.ltDone) && d.domOn (serdesDom p)

/-- RWS bits of the word at a key (R637). -/
def rwsMask (k : Nat) : Nat :=
  match regAt k with
  | some (r, _) => r.row.rws
  | none => 0

/-- Words with the staged words of a batch put in, in order; fields of other access types stay (R638). -/
def applyWords (w : Tab Word) (es : List Entry) : Tab Word :=
  es.foldl (fun w e =>
    match e with
    | .word k v => setWord w k (mergeBits (wordAt w k) (rwsMask k) v.toNat)
    | .dlv _ => w) w

/-- Settings that a batch leaves. -/
def Dev.withEntries (d : Dev) (es : List Entry) : Dev := { d with words := applyWords d.words es }

/-- Place a batch by apply-beat, seal order kept (R47). -/
def placeBatch (b : Batch) : List Batch → List Batch
  | [] => [b]
  | x :: r => if x.apply ≤ b.apply then x :: placeBatch b r else b :: x :: r

/-- Batches in commit order: by apply-beat, and in seal order among equal ones (R47). -/
def commitOrder (l : List Batch) : List Batch := l.foldl (fun l b => placeBatch b l) []

/-- Waiting batches with an apply-beat up to `a`, in commit order. -/
def Dev.waitingTo (d : Dev) (a : Nat) : List Batch := commitOrder (d.batch.sealed.filter fun b => b.apply ≤ a)

/-- Waiting batches with an apply-beat after `a`, in commit order. -/
def Dev.waitingPast (d : Dev) (a : Nat) : List Batch := commitOrder (d.batch.sealed.filter fun b => a < b.apply)

/-- Settings that the waiting batches up to apply-beat `a` leave (R685). -/
def Dev.before (d : Dev) (a : Nat) : Dev := (d.waitingTo a).foldl (fun d b => d.withEntries b.entries) d

/-- Index of a slot in the counter file of its Dray (R119). -/
def cntIx (p : Nat) : Nat := if isLine p then 8 + portIx p else portIx p

/-- Add to counter c of a port; a slot that is no port does not count (R76, R119). -/
def Dev.cnt (d : Dev) (p c : Nat) (n : Nat := 1) : Dev :=
  if d.exists_ p then
    d.add64 (.DRY_CNT_LO, [drayOf p, cntIx p, c]) (.DRY_CNT_HI, [drayOf p, cntIx p, c]) n
  else d

/-- A unit whose egress port breaks R85: counted on the ingress port, with ROUTE_ERR in that port's Dray (log entry 51). -/
def Dev.routeDrop (d : Dev) (p : Nat) : Dev := (d.cnt p 10).irq .DRY_INT_STAT 0 [drayOf p]

/-- The first byte lengths and times of transmission: bytes handed over from start `s` to the end of CCLK `t` (R418). -/
def handed (rate s t : Nat) : Nat := if t < s then 0 else (t + 1 - s) * rate * 5 / 48

/-- CCLK needed to hand over B bytes: ceil(9.6 B / r) (R418). -/
def lineCclk (rate b : Nat) : Nat := (48 * b + 5 * rate - 1) / (5 * rate)

end Sys2Proof.Machine
end

