-- ==== Sys2Proof/Machine/Gates.lean ====
section
/-! DEFINITION. Gates, shapers and policers (R412-R431). -/

namespace Sys2Proof.Machine

/-- The gate settings of a slot have an effect: GATE_EN, a port, and not a Thatch line port (R414, R417). -/
def Dev.gated (d : Dev) (p : Nat) : Bool :=
  d.flag .GATE_PORT_CFG [p] 31 && d.exists_ p && !d.thatchMode p

/-- Entries in use of a slot's list: gate states and intervals (R413). -/
def Dev.gateList (d : Dev) (p : Nat) : List (Nat × Nat) :=
  (List.range (d.fld .GATE_PORT_CFG [p] 26 16)).map fun i =>
    (d.fld .GCL_GATES [1024 * p + i] 7 0, d.fld .GCL_INTERVAL [1024 * p + i] 30 0)

/-- CYCLE of a slot (R436). -/
def Dev.gateCycle (d : Dev) (p : Nat) : Nat := d.fld .GATE_PORT_CYCLE [p] 30 0

/-- BASE of a slot (R436). -/
def Dev.gateBase (d : Dev) (p : Nat) : Nat := d.rd .GATE_PORT_BASE_LO [p] + d.rd .GATE_PORT_BASE_HI [p] * 2 ^ 32

/-- Position in the cycle at absolute CCLK t (R414). -/
def Dev.gatePos (d : Dev) (p t : Nat) : Nat :=
  let c := d.gateCycle p
  if c == 0 then 0 else (((t : Int) - d.gateBase p) % c).toNat

/-- Entry that covers position `x`, with the CCLK left in it, counting entries from `i`. -/
def entryAt : List (Nat × Nat) → Nat → Nat → Option (Nat × Nat × Nat)
  | [], _, _ => none
  | (g, n) :: r, x, i => if x < n then some (i, g, n - x) else entryAt r (x - n) (i + 1)

/-- Entry number and gate state at absolute CCLK t (R414, R437). -/
def Dev.gateAt (d : Dev) (p t : Nat) : Nat × Nat :=
  if !d.gated p then (0, 0xFF) else
  match entryAt (d.gateList p) (d.gatePos p t) 0 with
  | some (i, g, _) => (i, g)
  | none => (0, 0xFF)

/-- CCLK from the front of a list of entries over which class tc stays open. -/
def openRun (tc : Nat) : List (Nat × Nat) → Nat
  | [] => 0
  | (g, n) :: r => if g.testBit tc then n + openRun tc r else 0

/-- A class of a slot stays open for `n` CCLK from CCLK t, under the list in effect repeated (R418). -/
def Dev.gateFits (d : Dev) (p tc t n : Nat) : Bool :=
  if !d.gated p then true else
  let l := d.gateList p
  if l.all fun e => e.1.testBit tc then true else
  match entryAt l (d.gatePos p t) 0 with
  | some (i, g, left) => n ≤ openRun tc ((g, left) :: (l.drop (i + 1) ++ l))
  | none => true

/-- W(tc), the longest window; none is unbounded (R419). -/
def Dev.gateWindow (d : Dev) (p tc : Nat) : Option Nat :=
  if !d.gated p then none else
  let l := d.gateList p
  if l.all fun e => e.1.testBit tc then none
  else some ((List.range l.length).foldl (fun m i => max m (openRun tc (l.drop i ++ l))) 0)

/-- The gate admits a unit of B bytes of class tc at CCLK t (R418). -/
def Dev.gateAdmits (d : Dev) (p tc t b : Nat) : Bool := d.gateFits p tc t (lineCclk (d.rate p) b)

/-- A unit longer than every window of its class (R420). -/
def Dev.oversize (d : Dev) (p tc b : Nat) : Bool :=
  match d.gateWindow p tc with
  | none => false
  | some w => w < lineCclk (d.rate p) b

/-! Shapers. -/

/-- BURST of a queue in fill units (R422, R438). -/
def Dev.burst (d : Dev) (q : Nat) : Int := (d.fld .GATE_QSHP [q] 29 20 * 64 * 9600 : Nat)

/-- The shaper governs the queue: EN, a port that is not a Thatch line port (R417, R422). -/
def Dev.shaped (d : Dev) (q : Nat) : Bool := d.flag .GATE_QSHP [q] 31 && d.exists_ (q / 8) && !d.thatchMode (q / 8)

/-- Fill of a queue's bucket at CCLK t, after that CCLK's rise (R422, R423). -/
def Dev.fillAt (d : Dev) (q t : Nat) : Int :=
  let f := tgetD d.loft.fill q (0, 0)
  min (d.burst q) (f.1 + (d.fld .GATE_QSHP [q] 19 0 * (t - f.2) : Nat))

/-- The shaper admits a start at CCLK t (R422). -/
def Dev.shaperAdmits (d : Dev) (q t : Nat) : Bool := !d.shaped q || 0 ≤ d.fillAt q t

/-- Charge a start of B bytes at CCLK t (R422). -/
def Dev.shaperCharge (d : Dev) (q t b : Nat) : Dev :=
  if !d.shaped q then d else
  let l : Int := ((b + d.fld .GATE_PORT_CFG [q / 8] 5 0) * 9600 : Nat)
  { d with loft := { d.loft with fill := tset d.loft.fill q (d.fillAt q t - l, t) } }

/-- Reset a bucket at the boundary that begins at absolute CCLK t: the value before step 1 of that CCLK, then the rise
(R425). -/
def Dev.shaperReset (d : Dev) (q t : Nat) : Dev :=
  let f : Int := if d.flag .GATE_QSHP [q] 30 then d.burst q else 0
  { d with loft := { d.loft with fill := tset d.loft.fill q (min (d.burst q) (f + d.fld .GATE_QSHP [q] 19 0), t) } }

/-- What GATE_QSHP_FILL shows: the fill in whole bytes, rounded down, as 32 bits of two's complement (R439). -/
def Dev.fillShown (d : Dev) (q : Nat) : Nat :=
  if d.flag .GATE_QSHP [q] 31 then ((d.fillAt q d.now / 9600) % (2 ^ 32 : Nat)).toNat else 0

/-! Policers. -/

/-- Colour of a unit (R429). -/
inductive Colour where
  | green | yellow | red
  deriving DecidableEq, Repr

/-- Police a unit of `b` bytes with eave CCLK t on coach c (R429). -/
def Dev.police (d : Dev) (c t len : Nat) : Dev × Colour :=
  let p := d.fld .CO_ADV [c] 27 16
  if c == 0 || p == 0 then (d, .green) else
  let x := d.co c
  let b := len * 9600
  let x := if x.tLast < t then
      { x with tc := min (d.fld .POL_CBS [p] 20 0 * 9600) (x.tc + d.fld .POL_CIR [p] 19 0 * (t - x.tLast)),
               tp := min (d.fld .POL_PBS [p] 20 0 * 9600) (x.tp + d.fld .POL_PIR [p] 19 0 * (t - x.tLast)), tLast := t }
    else x
  if x.tp < b then (d.setCo c x, .red)
  else if x.tc < b then (d.setCo c { x with tp := x.tp - b }, .yellow)
  else (d.setCo c { x with tp := x.tp - b, tc := x.tc - b }, .green)

/-- Reset a coach's buckets at absolute CCLK t, full or empty (R431). -/
def Dev.policerReset (d : Dev) (c t : Nat) (full : Bool) : Dev :=
  let p := d.fld .CO_ADV [c] 27 16
  d.modCo c fun x =>
    { x with tc := if full then d.fld .POL_CBS [p] 20 0 * 9600 else 0,
             tp := if full then d.fld .POL_PBS [p] 20 0 * 9600 else 0, tLast := t }

end Sys2Proof.Machine
end

