-- ==== Sys2Proof/Machine/Loft.lean ====
section
/-! DEFINITION. The Loft: cells and banks, egress and relay queues, admission, gap markers, removals and the stomped end
(R382-R404, R420, R688). -/

namespace Sys2Proof.Machine

/-- Cells of a unit that holds B bytes (R384). -/
def cellsOf (b : Nat) : Nat := (b + 255) / 256

/-- Egress queue of a unit (R386). -/
def queueOf (u : Pkt) : Nat := 8 * u.egress + u.tc

/-- Due CCLK, ingress slot and arrival index of an entry (R387). -/
def entryKey : QEntry → Nat × Nat × Nat
  | .unit u => (u.due, u.ingress, u.index)
  | .gap due ing _ ix _ => (due, ing, ix)

/-- The order of R387. -/
def keyBefore (a b : Nat × Nat × Nat) : Bool :=
  a.1 < b.1 || (a.1 == b.1 && (a.2.1 < b.2.1 || (a.2.1 == b.2.1 && a.2.2 < b.2.2)))

/-- Place a unit after every entry that goes before it (R387). -/
def placeUnit (u : Pkt) : List QEntry → List QEntry
  | [] => [.unit u]
  | e :: r => if keyBefore (entryKey (.unit u)) (entryKey e) then .unit u :: e :: r else e :: placeUnit u r

/-- Entries of a queue. -/
def Dev.queue (d : Dev) (q : Nat) : List QEntry := tgetD d.loft.queues q []

/-- Put the entries of a queue. -/
def Dev.setQueue (d : Dev) (q : Nat) (l : List QEntry) : Dev :=
  { d with loft := { d.loft with queues := tput d.loft.queues [] q l } }

/-- The units of a list of entries. -/
def unitsOf (l : List QEntry) : List Pkt :=
  l.filterMap fun e => match e with | .unit u => some u | .gap .. => none

/-- Units of an egress queue. -/
def Dev.qUnits (d : Dev) (q : Nat) : List Pkt := unitsOf (d.queue q)

/-- Units of relay queue k (R390). -/
def Dev.relayQ (d : Dev) (k : Nat) : List Pkt := tgetD d.loft.relay k []

/-- Put the units of a relay queue. -/
def Dev.setRelayQ (d : Dev) (k : Nat) (l : List Pkt) : Dev :=
  { d with loft := { d.loft with relay := tput d.loft.relay [] k l } }

/-- Cells that have left queue q and are not free at the CCLK under way (R385). -/
def Dev.heldOver (d : Dev) (q : Nat) : Nat := (d.loft.hold.filter fun h => h.2.1 == q && d.now < h.1).length

/-- Cells held in egress queue q (R391, R408). -/
def Dev.qCells (d : Dev) (q : Nat) : Nat := ((d.qUnits q).map fun u => u.cells.length).sum + d.heldOver q

/-- Cells held in relay queue k (R408). -/
def Dev.relayCells (d : Dev) (k : Nat) : Nat := ((d.relayQ k).map fun u => u.cells.length).sum + d.heldOver (512 + k)

/-- U_P: cells held in the eight queues of slot p (R391). -/
def Dev.portCells (d : Dev) (p : Nat) : Nat := ((List.range 8).map fun t => d.qCells (8 * p + t)).sum

/-- G_P. -/
def Dev.guar (d : Dev) (p : Nat) : Nat := d.fld .LOFT_PORT_GUAR [p] 18 0

/-- A bank that counts in C_tot: its domain is on in the settings in effect (R382). -/
def Dev.bankOn (d : Dev) (b : Nat) : Bool := d.flag .PWR_DOM_CTL_LOFT [b] 31

/-- C_tot (R382). -/
def Dev.cTot (d : Dev) : Nat := 65536 * ((List.range 4).filter d.bankOn).length

/-- Sum of the guarantees and the relay reserves (R391). -/
def Dev.promised (d : Dev) : Nat :=
  ((List.range 64).map d.guar).sum + ((List.range 4).map fun k => d.fld .LOFT_RELAY_CFG [k] 18 0).sum

/-- H, the shared pool (R391). -/
def Dev.sharedSize (d : Dev) : Nat := d.cTot - d.promised

/-- S, the shared use (R391). -/
def Dev.sharedUsed (d : Dev) : Nat := ((List.range 64).map fun p => d.portCells p - d.guar p).sum

/-- Every cell held, by bank. -/
def Dev.cellBanks (d : Dev) : List Nat :=
  (d.loft.queues.flatMap fun q => (unitsOf q.2).flatMap (·.cells)) ++
  (d.loft.relay.flatMap fun q => q.2.flatMap (·.cells)) ++
  (d.loft.hold.filterMap fun h => if d.now < h.1 then some h.2.2 else none)

/-- Cells held in bank b. -/
def Dev.bankHeld (d : Dev) (b : Nat) : Nat := (d.cellBanks.filter (· == b)).length

/-- A bank that the Loft allocates in: neither off nor draining nor coming up (R382, R614). -/
def Dev.bankUsable (d : Dev) (b : Nat) : Bool := d.domOn (30 + b)

/-- Free cells by bank. -/
def Dev.bankFree (d : Dev) : List Nat :=
  (List.range 4).map fun b => if d.bankUsable b then 65536 - d.bankHeld b else 0

/-- Free cells of the Loft (R391, R406). -/
def Dev.freeCells (d : Dev) : Nat := d.bankFree.sum

/-- Take `n` cells from banks with room, round the banks from `b` (R382; log entry 9). -/
def takeCells : Nat → Nat → List Nat → List Nat
  | 0, _, _ => []
  | n + 1, b, free =>
    match ((List.range 4).map fun i => (b + i) % 4).find? fun i => 0 < free.getD i 0 with
    | none => []
    | some i => i :: takeCells n (i + 1) (free.set i (free.getD i 0 - 1))

/-- Banks of the cells a unit of B bytes takes now. -/
def Dev.allocate (d : Dev) (b : Nat) : List Nat := takeCells (cellsOf b) (Config.loftBank d.loft.pushed) d.bankFree

/-- The first condition of R391 that fails for a unit of B bytes in egress queue q; 0 admits it. -/
def Dev.admitCause (d : Dev) (q b : Nat) : Nat :=
  let p := q / 8
  let c := cellsOf b
  let u := d.portCells p
  if !((d.qUnits q).length < d.fld .LOFT_QLIM_U [q] 18 0) then 1
  else if !(d.qCells q + c ≤ d.fld .LOFT_QLIM_C [q] 18 0) then 2
  else if !(u + c ≤ d.fld .LOFT_PORT_MAX [p] 18 0) then 3
  else if !((u + c - d.guar p : Nat) - (u - d.guar p : Nat) + d.sharedUsed ≤ d.sharedSize) then 4
  else if !(c ≤ d.freeCells) then 5
  else 0

/-- Remove the markers at the head of queue q, whose entries are given, that are due by CCLK t (R396). -/
def Dev.gapHeads (q t : Nat) : List QEntry → Dev → Dev
  | .gap due _ _ _ n :: r, d =>
    if due ≤ t then Dev.gapHeads q t r (((d.setQueue q r).count .LOFT_QGAP [q] n).pmcSpread 10 4 1 (some (q / 8))) else d
  | _, d => d

/-- Remove the markers due at the head of queue q by CCLK t; one that a removed marker bares goes with it (R396). -/
def Dev.gapRemove (d : Dev) (q t : Nat) : Dev := Dev.gapHeads q t (d.queue q) d

/-- Add `n` to a marker's count, which holds at 65,535; true when it held (R395). -/
def gapAdd (n : Nat) : QEntry → QEntry × Bool
  | .gap due ing off ix c => (.gap due ing off ix (min (c + n) 65535), 65535 < c + n)
  | e => (e, false)

/-- Leave a marker for a dropped unit at its place, or add to a marker next to it (R395). -/
def placeGap (u : Pkt) : List QEntry → List QEntry × Bool
  | [] => ([.gap u.due u.ingress u.offset u.index 1], false)
  | .gap due ing off ix c :: r =>
    if keyBefore (u.due, u.ingress, u.index) (due, ing, ix) then
      -- the marker now stands first for this unit
      let g := gapAdd 1 (.gap u.due u.ingress u.offset u.index c)
      (g.1 :: r, g.2)
    else match r with
      | [] => let g := gapAdd 1 (.gap due ing off ix c); ([g.1], g.2)
      | e :: r' =>
        if keyBefore (u.due, u.ingress, u.index) (entryKey e) then
          let g := gapAdd 1 (.gap due ing off ix c); (g.1 :: e :: r', g.2)
        else let t := placeGap u (e :: r'); (.gap due ing off ix c :: t.1, t.2)
  | .unit v :: r =>
    if keyBefore (u.due, u.ingress, u.index) (entryKey (.unit v)) then
      (.gap u.due u.ingress u.offset u.index 1 :: .unit v :: r, false)
    else let t := placeGap u r; (.unit v :: t.1, t.2)

/-- The marker of a unit dropped from egress queue q (R395). -/
def Dev.leaveGap (d : Dev) (q : Nat) (u : Pkt) : Dev :=
  let g := placeGap u (d.queue q)
  let d := d.setQueue q g.1
  if g.2 then (d.irq .LOFT_QFLAG 1 [q]).irq .LOFT_INT_STAT 2 else d

/-- A unit too long for every window: counted, with a marker (R420). -/
def Dev.oversizeDrop (d : Dev) (q : Nat) (u : Pkt) : Dev :=
  (((d.count .GATE_QOVERSIZE [q]).irq .GATE_INT_STAT 0).pmcEvent 11 3 (some (q / 8))).leaveGap q u

/-- A unit refused by admission: counted, with its cause and a marker (R392). -/
def Dev.admitDrop (d : Dev) (q cause : Nat) (u : Pkt) : Dev :=
  let d := ((d.count .LOFT_QDROP [q]).irq .LOFT_INT_STAT 0).pmcEvent 10 3 (some (q / 8))
  { d with loft := { d.loft with cause := tputN d.loft.cause q cause } }.leaveGap q u

/-- Push a unit into its egress queue in the CCLK under way (R386, R391, R392, R420). -/
def Dev.push (d : Dev) (u : Pkt) : Dev :=
  let q := queueOf u
  if !d.exists_ u.egress then d.cnt u.ingress 10 else
  let d := { d with loft := { d.loft with lastPush := tset d.loft.lastPush q d.now } }
  if d.oversize u.egress u.tc u.held then d.oversizeDrop q u else
  let cause := d.admitCause q u.held
  if cause != 0 then d.admitDrop q cause u else
  let u := { u with cells := d.allocate u.held, pushAt := d.now }
  let d := { d with loft := { d.loft with pushed := d.loft.pushed + 1 } }
  (d.setQueue q (placeUnit u (d.queue q))).pmcEvent 10 1 (some u.egress)

/-- Order of relay units: ingress line port, then arrival index (R96, R390). -/
def relayBefore (a b : Pkt) : Bool := a.ingress < b.ingress || (a.ingress == b.ingress && a.index < b.index)

/-- Place a relay unit in its queue (R390). -/
def placeRelay (u : Pkt) : List Pkt → List Pkt
  | [] => [u]
  | v :: r => if v.beat < u.beat || (v.beat == u.beat && !relayBefore u v) then v :: placeRelay u r else u :: v :: r

/-- Push a relay unit into relay queue k (R391, R392). -/
def Dev.relayPush (d : Dev) (k : Nat) (u : Pkt) : Dev :=
  let c := cellsOf u.held
  if d.relayCells k + c ≤ d.fld .LOFT_RELAY_CFG [k] 18 0 && c ≤ d.freeCells then
    let u := { u with cells := d.allocate u.held, pushAt := d.now }
    { d with loft := { d.loft with pushed := d.loft.pushed + 1 } }.setRelayQ k (placeRelay u (d.relayQ k))
  else (d.count .LOFT_RELAY_DROP [k]).irq .LOFT_INT_STAT 3

/-- Keep a unit's cells held against queue q until `at_ j`, for its j-th cell (R385). -/
def Dev.holdCells (d : Dev) (q : Nat) (cells : List Nat) (at_ : Nat → Nat) : Dev :=
  { d with loft := { d.loft with
      hold := (d.loft.hold.filter fun h => d.now < h.1) ++
        (List.zip (List.range cells.length) cells).map fun jb => (at_ jb.1, q, jb.2) } }

/-- CCLK at which cell j of a unit of B bytes that starts at `s` on a port of rate `r` becomes free (R385). -/
def cellFreeAt (r s b j : Nat) : Nat := s + lineCclk r (min (256 * (j + 1)) b)

/-- Take unit u out of its egress queue without a start; its cells become free in the next CCLK (R385). -/
def Dev.removeUnit (d : Dev) (q : Nat) (u : Pkt) : Dev :=
  (d.setQueue q ((d.queue q).filter fun e => e != .unit u)).holdCells q u.cells fun _ => d.now + 1

/-- Bytes of the stomped end that follow `h`, the bytes handed over (R403). -/
def stompBytes (h : Bytes) : Bytes :=
  let m := h ++ List.replicate (60 - h.length) 0#8
  let m := m ++ fcsBytes (crc32 m ^^^ 0xFFFFFFFF)
  m ++ List.replicate ((8 - m.length % 8) % 8) 0#8

/-- Cells held past CCLK c + 1 for units of a queue that `f` takes become free there: the units are cut in CCLK c (R385). -/
def Dev.cutCells (d : Dev) (f : Nat → Bool) (c : Nat) : Dev :=
  { d with loft := { d.loft with
      hold := d.loft.hold.map fun (h : Nat × Nat × Nat) => if f h.2.1 && c + 1 < h.1 then (c + 1, h.2) else h } }

/-- End the unit under way on slot p with the stomped end after `h` bytes handed over, cut in CCLK c (R385, R402, R403). -/
def Dev.stompAt (d : Dev) (p h c : Nat) : Dev :=
  match tget d.loft.tx p with
  | none => d
  | some x =>
    if x.stomp.isSome || x.pkt.held ≤ h then d else
    let m := stompBytes ((x.pkt.bytes ++ List.replicate (h - x.pkt.bytes.length) 0#8).take h)
    let d := { d with loft := { d.loft with tx := tset d.loft.tx p { x with stomp := some m } } }.cutCells (· == queueOf x.pkt) c
    let d := d.setPort p { d.port p with freeAt := x.start + lineCclk (d.rate p) (m.length + 8 + 20) }
    d.count .LOFT_PORT_STOMP [p]

/-- End the unit under way on slot p with the stomped end from CCLK t + 1 on, the bytes handed over up to the end of CCLK t
standing (R402, R403). -/
def Dev.stomp (d : Dev) (p t : Nat) : Dev :=
  match tget d.loft.tx p with
  | none => d
  | some x => d.stompAt p (handed (d.rate p) x.start t) (t + 1)

/-- How many bytes are written by the end of CCLK t, when byte i is written in CCLK (a + step i) / div. -/
def paced (a step div t : Nat) : Nat := ((t + 1) * div - a + step - 1) / step

/-- Bytes of a unit written into the Loft by the end of CCLK t (R103, R142, R183). -/
def written (u : Pkt) (t : Nat) : Nat :=
  let all := min u.held u.bytes.length
  if u.wrDiv == 0 then all
  else
    let first := paced u.wrFrom u.wrStep u.wrDiv t
    min all (if first < u.split then first else u.split + paced u.wrNext u.wrStep u.wrDiv t)

/-- The unit may start under the cut-through threshold of its port (R399). -/
def Dev.eligible (d : Dev) (u : Pkt) (t : Nat) : Bool :=
  let ct := d.fld .LOFT_PORT_CT [u.egress] 7 0
  let need := if ct == 0 then u.held else min u.held (64 * ct)
  need ≤ written u t

end Sys2Proof.Machine
end

