-- ==== Sys2Proof/Machine/Ptp.lean ====
section
/-! DEFINITION. Time bases (R442-R446), the discipline of an edge (R452-R454), timestamps (R447-R450) and PTP corrections
(R458-R464). -/

namespace Sys2Proof.Machine

/-- Low and high words of a 64-bit value. -/
def loOf (v : Nat) : Nat := v % 2 ^ 32
def hiOf (v : Nat) : Nat := v / 2 ^ 32 % 2 ^ 32

/-- A second in units of 2^-40 ns. -/
def secUnits : Nat := 10 ^ 9 * 2 ^ 40

/-- Where a time base wraps: 2^48 seconds (R443). -/
def tbWrap : Nat := 2 ^ 48 * secUnits

/-- Time base n. -/
def Dev.tb (d : Dev) (n : Nat) : TimeBase := tgetD d.time.tb n .init

/-- Put time base n. -/
def Dev.setTb (d : Dev) (n : Nat) (x : TimeBase) : Dev :=
  { d with time := { d.time with tb := tput d.time.tb .init n x } }

/-- What each CCLK adds to a time base (R443). -/
def tbRate (x : TimeBase) : Nat := if x.en then x.inc else 0

/-- Value during absolute CCLK t, from the CCLK at which its span began (R443). -/
def tbValue (x : TimeBase) (t : Nat) : Nat :=
  if x.asOf ≤ t then (x.val + tbRate x * (t - x.asOf)) % tbWrap else
  match x.past.find? fun s => s.1 ≤ t with
  | some s => (s.2.1 + s.2.2 * (t - s.1)) % tbWrap
  | none => x.val

/-- Timestamp of an eave point in quarter φ of absolute CCLK t, in 2^-16 ns (R447). -/
def Dev.stamp (d : Dev) (n t phi : Nat) : Nat := ((tbValue (d.tb n) t + phi * 2 ^ 38) % tbWrap) / 2 ^ 24

/-- Timestamps in the four time bases. -/
def Dev.stamps (d : Dev) (t phi : Nat) : List Nat := (List.range 4).map fun n => d.stamp n t phi

/-- SEC, NS and FRAC of a value in 2^-16 ns. -/
def stampSec (s : Nat) : Nat := s / (10 ^ 9 * 2 ^ 16)
def stampNs (s : Nat) : Nat := s % (10 ^ 9 * 2 ^ 16) / 2 ^ 16
def stampFrac (s : Nat) : Nat := s % 2 ^ 16

/-- Transmit phase that serves departures of beat m (R448). A partner has the active's value for the beat under way and none
for a later one: it takes the newest that it holds (log entry 67). -/
def Dev.txPhase (d : Dev) (p m : Nat) : Nat :=
  let x := d.port p
  if m ≤ d.beat || d.follows then x.phUse else if m == d.beat + 1 then x.phPrev else x.phNow

/-! Boundary changes. -/

/-- INC as set. -/
def Dev.incSet (d : Dev) (n : Nat) : Nat := d.rd .TIM_TB_INC_LO [n] + d.fld .TIM_TB_INC_HI [n] 7 0 * 2 ^ 32

/-- The time base takes the INC of its registers. -/
def Dev.takeInc (d : Dev) (n : Nat) : Dev := d.setTb n { d.tb n with inc := d.incSet n }

/-- Boundary that starts at absolute CCLK t, numbered `u` from now on: the value is the one during the last CCLK, the span
that ends is kept, and changes are gathered. -/
def Dev.tbRoll (d : Dev) (t u n : Nat) : Dev :=
  let x := d.tb n
  d.setTb n { x with val := tbValue x (t - 1), asOf := u, inc := x.ppsInc.getD x.inc, ppsInc := none, setTo := none,
                     acc := x.ppsStep, ppsStep := 0,
                     past := ((x.asOf + u - t, x.val, tbRate x) :: if t == u then x.past else []).take 24 }

/-- A time base at the boundary: its value so far, and an INC that the discipline gives it, which its registers show
(R446, R454, R473). `t` is the CCLK that would follow, and `u` its number from now on. -/
def Dev.tbStart (t u : Nat) (d : Dev) (n : Nat) : Dev :=
  let inc := (d.tb n).ppsInc
  let d := d.tbRoll t u n
  match inc with
  | some v => (d.wr .TIM_TB_INC_LO [n] (loOf v)).wr .TIM_TB_INC_HI [n] (v / 2 ^ 32)
  | none => d

/-- A committed APPLY (R445). -/
def Dev.tbAdjust (d : Dev) (n : Nat) : Dev :=
  let x := d.tb n
  let c := d.rd .TIM_TB_ADJ_CTL [n]
  let sec := d.rd .TIM_TB_ADJ_SEC_LO [n] + d.fld .TIM_TB_ADJ_SEC_HI [n] 15 0 * 2 ^ 32
  let amt := sec * secUnits + d.fld .TIM_TB_ADJ_NS [n] 29 0 * 2 ^ 40
  if bit c 29 then d.setTb n { x with setTo := some amt, acc := 0 }
  else d.setTb n { x with acc := x.acc + (if bit c 28 then -(amt : Int) else amt) }

/-- After step 4: EN as set, the increment of CCLK 0, then the changes in order (R443, R445, R446). -/
def Dev.tbFinish (d : Dev) (t n : Nat) : Dev :=
  let x := d.tb n
  let en := d.flag .TIM_TB_CFG [n] 31
  let free := if en then (x.val + x.inc) % tbWrap else x.val
  let base := x.setTo.getD free
  let v := (((base : Int) + x.acc) % (tbWrap : Int)).toNat
  let chg := (v : Int) - free
  d.setTb n { x with val := v, asOf := t, en := en, setTo := none, acc := 0,
                     adjs := if chg == 0 then x.adjs else x.adjs ++ [(t, chg)] }

/-- What the words of a batch do to the time bases as they are committed (R444, R445). -/
def Dev.timeWord (d : Dev) (e : Entry) : Dev :=
  match e with
  | .word k _ =>
    match regAt k with
    | some (.TIM_TB_INC_LO, [t]) | some (.TIM_TB_INC_HI, [t]) => d.takeInc t
    | some (.TIM_TB_ADJ_CTL, [t]) => if d.flag .TIM_TB_ADJ_CTL [t] 31 then d.tbAdjust t else d
    | _ => d
  | .dlv _ => d

/-! The discipline of an edge. -/

/-- SUPV of a time base: 0 NONE, 1 HOST, 2 PPS. -/
def Dev.supv (d : Dev) (n : Nat) : Nat := d.fld .TIM_TB_CFG [n] 29 28

/-- State of PPS input i. -/
def Dev.ppsIn (d : Dev) (i : Nat) : PpsIn := tgetD d.time.pin i ⟨0, 0, 0, [], none, [], []⟩

/-- Put PPS input i. -/
def Dev.setPpsIn (d : Dev) (i : Nat) (x : PpsIn) : Dev := { d with time := { d.time with pin := tset d.time.pin i x } }

/-- Some time base that input i disciplines is not in TRACK (R452). -/
def Dev.ppsFree (d : Dev) (i : Nat) : Bool :=
  (List.range 4).any fun n => d.supv n == 2 && d.fld .TIM_TB_CFG [n] 27 26 == i && (d.tb n).state != TbState.track

/-- Clamp of R454. -/
def clampInc (v : Int) : Nat := (max 915801559968 (min 916717819658 v)).toNat

/-- The discipline of time base n by an accepted edge of input i captured as `c` in beat `b`: several edges of a beat act in turn, and a base whose EN has become 0 takes none (R453, R454). -/
def Dev.discipline (d : Dev) (i b : Nat) (caps : List Nat) (n : Nat) : Dev :=
  let x := d.tb n
  if !(d.supv n == 2 && d.fld .TIM_TB_CFG [n] 27 26 == i && x.state != TbState.off && x.next != some TbState.off) then d else
  let c := caps.getD n 0
  let half : Int := 5 * 10 ^ 8 * 65536
  let ofs := (BitVec.ofNat 32 (d.rd .TIM_PPSO_OFS [i])).toInt
  let e := (((c % (10 ^ 9 * 65536) : Nat) : Int) - ofs * 65536 + half) % (2 * half) - half
  let kp := d.fld .TIM_TB_CFG [n] 23 20
  let x := { x with last := b, perr := e, next := if x.state == TbState.track then x.next else some TbState.track }
  if (d.tb n).state != TbState.track || d.fld .TIM_TB_SUPV [n] 31 16 * 65536 < e.natAbs then
    d.setTb n { x with ppsStep := x.ppsStep - e * 2 ^ 24, prevE := 0 }
  else
    let inc := clampInc ((x.ppsInc.getD x.inc : Nat) - ((e - x.prevE) * 229) / 2 ^ 14 - (e * 229) / 2 ^ (14 + kp))
    d.setTb n { x with ppsInc := some inc, prevE := e }

/-- An edge of input i captured in beat `b`, as acted on, is accepted (R452). -/
def Dev.ppsAccepts (d : Dev) (i b : Nat) : Bool :=
  d.ppsFree i ||
  match (d.ppsIn i).lastOk with
  | none => true
  | some o => 999000 ≤ b - o && b - o ≤ 1001000

/-- An accepted edge of input i: the time bases that it disciplines take it (R452-R454). -/
def Dev.ppsAccept (d : Dev) (i b : Nat) (caps : List Nat) : Dev :=
  forEach 4 (d.setPpsIn i { d.ppsIn i with lastOk := some b }) fun d n => d.discipline i b caps n

/-! Boundaries to come. -/

/-- The time bases as they will stand in beat b, the next beat, by all that the device holds: edges waiting, INC of the discipline,
states, and the sealed batches of that boundary, in their order (R40, R443-R446, R453, R454, R488; log entry 88). -/
def Dev.timeAhead (d : Dev) (b : Nat) : Dev :=
  let d := forEach 4 d fun d i =>
    ((d.ppsIn i).waiting.filter fun w => w.1 + 2 == b).foldl (fun (d : Dev) (w : Nat × List Nat) =>
      if d.ppsAccepts i (w.1 + 1) then d.ppsAccept i (w.1 + 1) w.2 else d) d
  let d := forEach 4 d (Dev.tbStart (b * 1200) (b * 1200))
  let d := forEach 4 d fun d n => d.setTb n { d.tb n with state := (d.tb n).next.getD (d.tb n).state, next := none }
  let d := ((d.waitingTo b).filter fun x => x.apply == b).foldl (fun (d : Dev) (x : Batch) =>
    x.entries.foldl Dev.timeWord (d.withEntries x.entries)) d
  forEach 4 d fun d n => d.tbFinish (b * 1200) n

/-- The device with its time bases as absolute CCLK t will find them, at most two boundaries on. -/
def Dev.timeFor (d : Dev) (t : Nat) : Dev :=
  (List.range (min (t / 1200 - d.beat) 2)).foldl (fun e i => e.timeAhead (d.beat + 1 + i)) d

/-! PTP. -/

/-- The time base that maps a domain number (R459). -/
def Dev.domainTb (d : Dev) (dom : Nat) : Option Nat :=
  (List.range 4).find? fun n => d.flag .TIM_TB_CFG [n] 30 && d.fld .TIM_TB_CFG [n] 15 8 == dom

/-- Slot p requests one-step insertion and is one of the first eight that do (R464). -/
def Dev.oneStep (d : Dev) (p : Nat) : Bool :=
  d.flag .TIM_PTP_PORT [p] 30 && ((List.range p).filter fun i => d.flag .TIM_PTP_PORT [i] 30).length < 8

/-- Sum of the adjustments to time base n at boundaries after CCLK a and no later than CCLK b (R460), in 2^-16 ns. -/
def adjSum (x : TimeBase) (a b : Nat) : Int := ((x.adjs.filter fun e => a < e.1 && e.1 ≤ b).map (·.2)).sum / 2 ^ 24

/-- What a correction does to a frame (R460-R464). `tIn` is the receive stamp in each time base; `tOut` the transmit stamp in time
base n, and the sum of the adjustments between the two eave points. -/
structure PtpPlan where
  tIn  : List Nat
  tOut : Nat → Nat × Int

/-- Correct an event message for egress slot p; the FCS is left to the caller. Answers the frame and whether it was a
mapped message that was corrected (R459-R464). -/
def Dev.ptpCorrect (d : Dev) (p : Nat) (pl : PtpPlan) (f : Bytes) : Dev × Bytes × Bool :=
  match ptpAt f with
  | none => (d, f, false)
  | some (h, udp) =>
    match d.domainTb (field f (h + 4) 1) with
    | none => (d.count .TIM_PTP_CNT [p, 3], f, false)
    | some n =>
      let tOut := (pl.tOut n).1
      let insert := d.oneStep p && field f h 1 % 16 == 0 && 44 ≤ field f (h + 2) 2 && field f (h + 34) 10 == 0
      if !insert && !d.flag .TIM_PTP_PORT [p] 31 then (d, f, false) else
      let old := (f.drop (h + 8)).take 36
      let cf : Int := (BitVec.ofNat 64 (field f (h + 8) 8)).toInt
      let r : Int := (tOut : Int) - pl.tIn.getD n 0 - (pl.tOut n).2
      let sat := !insert && 2 ^ 63 - 1 < cf + r
      let newCf : Int := if insert then stampFrac tOut else if sat then 2 ^ 63 - 1 else cf + r
      let f1 := putAt f (h + 8) (bytesOfNat 8 (newCf % (2 ^ 64 : Int)).toNat)
      let f2 := if insert then putAt f1 (h + 34) (bytesOfNat 6 (stampSec tOut) ++ bytesOfNat 4 (stampNs tOut)) else f1
      let hc := field f (h - 2) 2
      let f3 := if udp && hc != 0 then putAt f2 (h - 2) (bytesOfNat 2 (newChecksum hc old ((f2.drop (h + 8)).take 36) false)) else f2
      let d := if insert then d.count .TIM_PTP_CNT [p, 1] else d.count .TIM_PTP_CNT [p, 0]
      let d := if sat then d.count .TIM_PTP_CNT [p, 4] else d
      (d.pmcEvent 12 1 (some p), f3, true)

/-- Recompute the FCS of a frame whose last four bytes hold it. -/
def refcs (f : Bytes) : Bytes := let m := f.take (f.length - 4); m ++ fcsOf m

/-- Planned transmit stamp in time base n of unit u with start CCLK `s` on slot p, and the adjustments since its receive stamp: on
the INC in effect, no adjustment assumed (R447, R460, R461). -/
def Dev.txPlanned (d : Dev) (p s eave n : Nat) : Nat × Int :=
  let t := s + d.dOut p
  (d.stamp n t (d.txPhase p (t / 1200)), adjSum (d.tb n) eave t)

/-- Actual transmit stamp in time base n with start CCLK `s` on slot p, and the adjustments since the receive stamp: with what
boundaries before the departure eave point bring (R447, R460, R461; log entry 88). -/
def Dev.txActual (d : Dev) (p s eave n : Nat) : Nat × Int :=
  let t := s + d.dOut p
  let e := d.timeFor t
  (e.stamp n t (d.txPhase p (t / 1200)), adjSum (e.tb n) eave t)

end Sys2Proof.Machine
end

