-- ==== Sys2Proof/Machine/Packer.lean ====
section
/-! DEFINITION. The Thatch packer (R157-R161, R165, R174-R176): what a line port hands over in its superframes, CCLK by CCLK, and
the stomped end of all that is under way (R404). -/

namespace Sys2Proof.Machine

/-- Bytes of a superframe, and of its payload (R157). -/
def sfBytes : Nat := 16432
def payloadBytes : Nat := 16384

/-- The frame alignment word (R160). -/
def faw : Nat := 0x7A3F5C91E406B82D

/-- A header before FDP encryption, HCRC excluded: bytes 0-25 (R160). -/
def hdrStart (label flags coach stage seq alarm : Nat) : Bytes :=
  bytesOfNat 8 faw ++ [BitVec.ofNat 8 label, BitVec.ofNat 8 flags] ++ bytesOfNat 2 coach ++ bytesOfNat 4 stage ++
  bytesOfNat 8 seq ++ bytesOfNat 2 alarm

/-- Bytes 0-31 of a superframe from its first 26 bytes and the FDP as sent (R160, R161). -/
def hdrWhole (start fdp : Bytes) : Bytes :=
  let h := start ++ fdp ++ [0#8, 0#8]
  h ++ bytesOfNat 2 (crc16 (h.drop 8))

/-- A protected superframe (R170). -/
def sealSuperframe (key : BitVec 256) (iv : BitVec 96) (start : Bytes) (fdp : Nat) (payload : Bytes) : Bytes :=
  let ct := ctrXor key iv (bytesOfNat 2 fdp ++ payload)
  let h := hdrWhole start (ct.take 2)
  h ++ ct.drop 2 ++ gcmTag key iv (h.take 26 ++ h.drop 28) ct

/-- Thatch state of a line port nothing has touched. -/
def thatchInit : ThatchDyn :=
  { align := .hunt, pos := 0, lastFaw := none, cands := [], expect := 0, misses := 0, ord := 0,
    runs := List.replicate 8 0, lastSf := none, cond := 0, raw := 0, rpt := 0, rdiRx := false, csfRx := false,
    tagWait := [], rxItem := .fdp, rxOpen := (0, 0), live := [], rxBeat := 0, rxIdx := 0, txOn := false, txNext := 0, txLeft := [],
    txOwner := none, txSf := none, txLast := [] }

/-- Thatch state of line port n. -/
def Dev.thatch (d : Dev) (n : Nat) : ThatchDyn := tgetD d.ports.thatch n thatchInit

/-- Put the Thatch state of line port n. -/
def Dev.setThatch (d : Dev) (n : Nat) (x : ThatchDyn) : Dev :=
  { d with ports := { d.ports with thatch := tput d.ports.thatch thatchInit n x } }

/-- CCLK in which byte y of the superframe that starts at `tx`, in units of 1/(5r) CCLK, is handed to the PCS. -/
def txCclk (tx r y : Nat) : Nat := (tx + 48 * y) / (5 * r)

/-- The head unit that slot p's scheduler takes at CCLK t when gates and shapers do not matter (R174, R388). -/
def Dev.packHead (d : Dev) (p t : Nat) : Option (Nat × Pkt) :=
  (List.range 8).reverse.findSome? fun tc =>
    match d.queue (8 * p + tc) with
    | .unit u :: _ => if u.due ≤ t && u.notBefore ≤ t && d.eligible u t then some (8 * p + tc, u) else none
    | _ => none

/-- Position of a client frame's first byte in the superframe that carries it, and whether that is the next one: its item of `len`
bytes begins at payload offset `off` (R165, R169, R183). -/
def carryAt (off len : Nat) : Bool × Int :=
  if payloadBytes ≤ off + 4 then (true, (32 + (off + 4 - payloadBytes) : Nat))
  else if payloadBytes < off + len then (true, ((32 + off + 4 : Nat) : Int) - sfBytes)
  else (false, (32 + off + 4 : Nat))

/-- What a packed item sends: its delimiter and client frame, corrected when it is a PTP event message, by the transmit stamp of
the superframe that carries it; a ghost's line time in fill words (R165, R169, R183, R450, R461, R515; log entry 89). -/
def Dev.packPtp (d : Dev) (p tx r off : Nat) (u : Pkt) : Dev × Bytes :=
  if u.ghost then (d, List.replicate ((u.held + 3) / 4 * 4) 0#8) else
  if !u.actual then (d, u.bytes) else
  let x := carryAt off u.bytes.length
  let car := txCclk (if x.1 then tx + 48 * sfBytes else tx) r 0
  let plan : PtpPlan := ⟨u.rts, fun n =>
    let o := d.txActual p car u.eave n
    (((o.1 : Int) + (2 * 8 * 65536 * x.2 + r) / (2 * r : Nat)).toNat, o.2)⟩
  let c := d.ptpCorrect p plan (u.bytes.drop 4)
  (c.1, u.bytes.take 4 ++ if c.2.2 then refcs c.2.1 else c.2.1)

/-- The superframe whose payload is complete. -/
def txBytes (k : TxSf) : Bytes := sealSuperframe k.key k.iv k.start k.fdp k.out.reverse.flatten

/-- Put an item into the payload of superframe `k` of line port n; what does not fit is left for the next one (R165). -/
def Dev.putItem (d : Dev) (n : Nat) (k : TxSf) (b : Bytes) (u : Option Pkt) : Dev :=
  let room := payloadBytes - k.off
  let k := { k with off := k.off + min room b.length, out := b.take room :: k.out }
  let x := d.thatch n
  if payloadBytes ≤ k.off then
    d.setThatch n { x with txSf := none, txLast := txBytes k, txLeft := b.drop room, txOwner := if room < b.length then u else none }
  else d.setThatch n { x with txSf := some k, txLeft := [], txOwner := none }

/-- Cells of a packed unit become free as its bytes are handed over, the 48 bytes of a tag and header between two
superframes counted (R385). -/
def packFree (tx r off n j : Nat) : Nat :=
  let e := off + min (256 * (j + 1)) n
  (tx + 48 * (32 + e + if payloadBytes < e then 48 else 0) + 5 * r - 1) / (5 * r)

/-- Slot p sends client frames in this beat (R107). -/
def Dev.opens (d : Dev) (p : Nat) : Bool := (d.port p).linkUp && d.en p

/-- Pack the item that begins at the point reached, in CCLK t (R174, R396). -/
def Dev.packItem (d : Dev) (n : Nat) (k : TxSf) (t : Nat) : Dev :=
  let p := 32 + n
  let r := d.rate p
  let d := forEach 8 d fun d i => d.gapRemove (8 * p + i) t
  match if d.opens p then d.packHead p t else none with
  | none => d.putItem n k (List.replicate 4 0#8) none
  | some (q, u) =>
    let d := ((d.setQueue q ((d.queue q).drop 1)).holdCells q u.cells (packFree k.at_ r k.off u.held)).pmcSpread 10 2 1 (some p)
    let c := d.packPtp p k.at_ r k.off u
    c.1.putItem n k c.2 (some u)

/-- Client frames due by CCLK t while AIS is sent are dropped (R176). -/
def Dev.aisDrop (d : Dev) (p c t : Nat) : Nat → Dev
  | 0 => d
  | n + 1 =>
    let d := forEach 8 d fun d i => d.gapRemove (8 * p + i) t
    match d.packHead p t with
    | none => d
    | some (q, u) => ((d.removeUnit q u).coCount c 8).aisDrop p c t n

/-- Hand over line port n's superframe under way up to the end of CCLK t; the fuel is more than a payload takes. A frame due
while AIS is sent is dropped whatever the link (R174, R176; log entry 55). -/
def Dev.packLoop (n t : Nat) : Nat → Dev → Dev
  | 0, d => d
  | m + 1, d =>
    match (d.thatch n).txSf with
    | none => d
    | some k =>
      let r := d.rate (32 + n)
      if k.ais then
        let last := txCclk k.at_ r sfBytes - 1
        let d := d.aisDrop (32 + n) k.coach (min t last) 262145
        if last ≤ t then d.setThatch n { d.thatch n with txSf := none } else d
      else
        let c := txCclk k.at_ r (32 + k.off)
        if t < c then d else Dev.packLoop n t m (d.packItem n k c)

/-- Line port n hands over its items up to the end of CCLK t, and the markers due at the heads of its queues go (R174, R396). -/
def Dev.packItems (d : Dev) (n t : Nat) : Dev :=
  forEach 8 (Dev.packLoop n t 4200 d) fun d i => d.gapRemove (8 * (32 + n) + i) t

/-- Line port n has handed over all that it hands over by the end of CCLK t; what it counts before the CCLK under way is no count of
this CCLK (R15, R174). What can tell brings it up to date first (log entry 65). -/
def Dev.packTo (d : Dev) (n t : Nat) : Dev :=
  if (d.thatch n).txSf.isNone then d else
  { d.packItems n (min t (d.now - 1)) with addRc := d.addRc }.packItems n t

/-- Every line port has handed over all that it hands over by the end of the CCLK under way (R174). -/
def Dev.packAll (d : Dev) : Dev := forEach 32 d fun d n => d.packTo n d.now

/-- Every line port has handed over all that it hands over before the CCLK under way (R174, R632). -/
def Dev.packBefore (d : Dev) : Dev := forEach 32 d fun d n => d.packTo n (d.now - 1)

/-! The stomped end of everything. -/

/-- Cut a superframe under way on slot p: from CCLK t + 1 on an error control block replaces its next block, and the client
frames it carries go with it (R385, R404). -/
def Dev.stompSuperframe (d : Dev) (p t : Nat) : Dev :=
  let x := d.thatch (portNo p)
  if isLine p && x.txOn then
    ((d.cutCells (fun q => q / 8 == p) (t + 1)).setThatch (portNo p)
      { x with txOn := false, txLeft := [], txOwner := none, txSf := none }).count .LOFT_PORT_STOMP [p]
  else d

/-- End every unit under way with the stomped end, what was handed over by the end of CCLK t, the one under way or the one before
it, standing (R363, R404). -/
def Dev.stompAll (d : Dev) (t : Nat) : Dev :=
  forEach 64 (forEach 32 d fun d n => d.packTo n t) fun d p => (d.stomp p t).stompSuperframe p t

end Sys2Proof.Machine
end

