-- ==== Sys2Proof/Machine/Faults.lean ====
section
/-! DEFINITION. The Postilion and the triggers of the Whip (R552-R569), the halt (R363, R564) and the end of boot on a
fatal event (R608). -/

namespace Sys2Proof.Machine

/-- A reserved source, or a number that names none (R552). -/
def srcReserved (s : Nat) : Bool := (20 ≤ s && s ≤ 23) || (154 ≤ s && s ≤ 165) || 189 ≤ s

/-- A source of kind C (R552). -/
def srcCond (s : Nat) : Bool :=
  s == 0 || s == 1 || s == 3 || s == 4 || s == 10 || s == 19 || (48 ≤ s && s ≤ 55) || s == 57 ||
  (100 ≤ s && s ≤ 133) || s == 186

/-- Sources whose events are fatal (R552). -/
def srcFatal (s : Nat) : Bool :=
  s == 0 || (3 ≤ s && s ≤ 5) || s == 7 || s == 8 || s == 11 || s == 13 || s == 17 || (28 ≤ s && s ≤ 31) || s == 41 ||
  s == 44 || s == 45 || s == 47 || (64 ≤ s && s ≤ 79) || (100 ≤ s && s ≤ 133) || s == 187

/-- Sources whose events are corrected errors (R552). -/
def srcCorrected (s : Nat) : Bool :=
  s == 9 || s == 12 || s == 19 || (24 ≤ s && s ≤ 27) || (32 ≤ s && s ≤ 35) || s == 40 || s == 43 || s == 46 ||
  s == 60 || (80 ≤ s && s ≤ 87) || (97 ≤ s && s ≤ 99) || (134 ≤ s && s ≤ 149) || (151 ≤ s && s ≤ 153) ||
  (166 ≤ s && s ≤ 186)

/-- Severity a block gives an event of a source: 0 corrected, 1 contained, 2 fatal. F088 + c carries the one given (R552). -/
def srcSeverity (s sev : Nat) : Nat :=
  if 88 ≤ s && s ≤ 95 then (if sev == 2 then 2 else 1)
  else if srcFatal s then 2 else if srcCorrected s then 0 else 1

/-- A source that allows block reset (R552). -/
def srcBlockReset (s : Nat) : Bool := (48 ≤ s && s ≤ 55) || (134 ≤ s && s ≤ 150)

/-! Whip triggers. -/

/-- Raise a Whip trigger in the beat under way: bit of SRC, and the source of a FAULT trigger (R567, R568). -/
def Dev.whipTrigger (d : Dev) (bitNo fault : Nat) : Dev :=
  let k := d.beat
  match d.pair.state with
  | .solo | .fenced =>
    { d with whip := { d.whip with due := d.whip.due ++ [⟨k + 1, k, 2 ^ bitNo, fault⟩] } }
  | .active =>
    let r := match d.pair.whipRec with
      | some (s, b) => (s ||| 2 ^ bitNo, b)
      | none => (2 ^ bitNo, k)
    { d with whip := { d.whip with due := d.whip.due ++ [⟨k + 2, k, 2 ^ bitNo, fault⟩] },
             pair := { d.pair with whipRec := some r } }
  | .standby | .syncing =>
    if bitNo ≤ 2 then { d with pair := { d.pair with whipReq := true } } else d

/-- Bit of WHP_CFG.TRIG_EN (R567). -/
def Dev.whipEn (d : Dev) (i : Nat) : Bool := d.flag .WHP_CFG [] i

/-- The FAULT source, for an event of source s: whether REACT_HI was applied, and whether the event was fatal (R567). -/
def Dev.whipFault (d : Dev) (s : Nat) (hi fatal : Bool) : Dev :=
  let lv := d.fld .WHP_FAULT [] 31 30
  if d.whipEn 2 && d.fld .WHP_FAULT [] 7 0 == s && (lv == 0 || (lv == 1 && hi) || (lv == 2 && fatal)) then
    d.whipTrigger 2 s
  else d

/-! Events. -/

/-- FAIL code of a fatal source before beat 0 (R608). -/
def bootFailCode (s : Nat) : Nat :=
  if s == 0 then 1 else if s == 7 || s == 8 || s == 11 then 2 else if s == 17 then 4
  else if 88 ≤ s && s ≤ 95 then 5 else if 100 ≤ s && s ≤ 133 then 6 else 7

/-- Boot stops: STAGE reads FAILED and the device halts with its Ridge lanes idle (R608). -/
def Dev.bootStop (d : Dev) (code : Nat) : Dev :=
  if d.boot.stage == 15 then d
  else
    { d with boot := { d.boot with stage := 15, fail := code }, halt := true,
             ridge := { d.ridge with linkUp := false, peerUp := false } }.linkLost

/-- The fixed reaction of a fatal event (R363, R564). -/
def Dev.fatalStop (d : Dev) (s : Nat) : Dev :=
  let d := if d.halt then d else d.stompAll d.now
  let d := if d.pst.alert || d.pst.fatal then d else d.pmcEvent 15 3
  let d := { d with halt := true, pst := { d.pst with
    fatal := true, alert := true,
    firstEv := if d.pst.firstEv.isNone then some (s, d.beat) else d.pst.firstEv } }
  if d.preRun then d.bootStop (bootFailCode s) else d

/-- Apply a reaction set to an event of source s: INT, ALERT, ERR, BLOCK, CHIP from bit 0 (R558-R563). -/
def Dev.react (d : Dev) (s set : Nat) (fatal : Bool) : Dev :=
  let d := d.setSrc s { d.src s with lastInt := bit set 0, errh := (d.src s).errh || bit set 2 }
  let wasAlert := d.pst.alert
  let d := { d with pst := { d.pst with
    v4req := d.pst.v4req || bit set 0,
    alert := d.pst.alert || bit set 1,
    blockReq := if bit set 3 && srcBlockReset s then d.pst.blockReq ++ [(s, d.clk.ticks)] else d.pst.blockReq,
    chipReq := if bit set 4 then (match d.pst.chipReq with | none => some s | c => c) else d.pst.chipReq } }
  let d := if bit set 1 then { d with set1c := tputN d.set1c (Reg.key .PST_ALERT) 1 } else d
  let d := if !wasAlert && d.pst.alert then d.pmcEvent 15 3 else d
  if fatal || bit set 1 || bit set 2 || bit set 3 || bit set 4 then d.voidDet 3 else d

/-- Classify one event and react (R554-R556). -/
def Dev.classify (d : Dev) (s sev : Nat) : Dev :=
  let x := d.src s
  let hiSet := d.fld .PST_SRC_REACT [s] 9 5
  let loSet := d.fld .PST_SRC_REACT [s] 4 0
  let mode := d.flag .PST_CFG [] 0
  let n := d.beat
  if sev == 2 then
    let d := d.setSrc s { x with lastSev := 2, severe := if mode then true else x.severe }
    let d := (d.fatalStop s).react s hiSet true
    (d.pmcEvent 15 2).whipFault s true true
  else if mode then
    let d := d.setSrc s { x with lastSev := sev, severe := sev == 1 }
    if sev == 1 then ((d.react s hiSet false).pmcEvent 15 2).whipFault s true false
    else (d.react s loSet false).whipFault s false false
  else
    let x := if x.open_ && n < x.winStart + d.fld .PST_SRC_WIN [s] 19 0 then { x with winCnt := min 255 (x.winCnt + 1) }
             else { x with open_ := true, winStart := n, winCnt := 1 }
    let severe := d.fld .PST_SRC_WIN [s] 31 24 ≤ x.winCnt
    let d := d.setSrc s { x with lastSev := sev, severe := x.severe || severe }
    if severe then ((d.react s hiSet false).pmcEvent 15 2).whipFault s true false
    else (d.react s loSet false).whipFault s false false

/-- One event of source s reaches the Postilion: PEND, the count, and the reaction (R557). -/
def Dev.oneEvent (d : Dev) (sev s : Nat) : Dev :=
  if 255 ≤ tgetD d.pst.inCclk s 0 then d.irq .PST_SRC_STAT 27 [s] else
  let d := { d with pst := { d.pst with inCclk := tputN d.pst.inCclk s (tgetD d.pst.inCclk s 0 + 1) } }
  ((((d.irq .PST_SRC_STAT 31 [s]).count .PST_SRC_CNT [s]).pmcEvent 15 1)).classify s sev

/-- `n` events of source s, up to one more than a CCLK takes. -/
def Dev.events (d : Dev) (s sev n : Nat) : Dev :=
  if srcReserved s then d else (List.range (min n 256)).foldl (fun d _ => d.oneEvent sev s) d

/-- One event that a block of the device reports, with the severity R552 gives the source. -/
def Dev.raise (d : Dev) (s : Nat) : Dev := d.events s (srcSeverity s 2) 1

/-- An uncorrectable error was found in covered state: an ACTIVE or STANDBY device is no longer intact (R497). -/
def Dev.notIntact (d : Dev) : Dev :=
  if d.pair.state == .active || d.pair.state == .standby then { d with pair := { d.pair with intact := false } } else d

/-- Sources that report an uncorrectable error of covered state which no rule resolves: batch store, key store, coach table, Loft,
TCAM and on-die classification state (R494, R497, R552). -/
def srcCovered (s : Nat) : Bool := s == 5 || s == 13 || s == 41 || s == 44 || s == 45 || s == 47

/-- The condition of a kind C source: an event when it becomes true (R552). -/
def Dev.setCond (d : Dev) (s : Nat) (holds : Bool) : Dev :=
  if holds == (d.src s).cond then d else
  let d := d.setSrc s { d.src s with cond := holds }
  if holds then d.raise s else d

/-- A write of 1 to PEND of source s (R559, R560). -/
def Dev.clearPend (d : Dev) (s : Nat) : Dev :=
  let k := Reg.key .PST_SRC_STAT [s]
  if srcCond s && (d.src s).cond then d
  else if bit (tgetD d.set1c k 0) 31 then d
  else (d.setSrc s { d.src s with errh := false }).wrFld .PST_SRC_STAT [s] 31 31 0

/-- PEND of source s. -/
def Dev.pendOf (d : Dev) (s : Nat) : Bool := d.flag .PST_SRC_STAT [s] 31

/-- ERR_N is low (R363, R560, R608). -/
def Dev.errLow (d : Dev) : Bool := d.pst.fatal || d.halt || d.pst.src.any fun e => e.2.errh

/-- ALERT_N is low (R561, R564). -/
def Dev.alertLow (d : Dev) : Bool := d.pst.alert || d.pst.fatal

/-- A write of PST_ALERT.ACK = 1; an ALERT event of the same CCLK, or a fatal event, keeps ALERT_N low (R561, R564). -/
def Dev.alertAck (d : Dev) : Dev :=
  if d.pst.fatal || tgetD d.set1c (Reg.key .PST_ALERT) 0 == 1 then d else { d with pst := { d.pst with alert := false } }

/-- A write of PST_INJ with GO = 1 (R566). -/
def Dev.inject (d : Dev) (s sev : Nat) : Dev := if sev ≤ 2 then d.events s sev 1 else d

/-- Close the window of source s at the boundary that starts beat `n`, if it is due (R555). -/
def Dev.closeWindow (d : Dev) (n s : Nat) : Dev :=
  let x := d.src s
  if x.open_ && x.winStart + d.fld .PST_SRC_WIN [s] 19 0 ≤ n then
    d.setSrc s { x with open_ := false, severe := if d.flag .PST_CFG [] 0 then x.severe else false, winCnt := 0 }
  else d

end Sys2Proof.Machine
end

