-- ==== Sys2Proof/Machine/Flash.lean ====
section
/-! DEFINITION. The configuration flash: cells, erase and program, the lifetime count (R596, R598), the floor records
(R599) and the CK slots (R278). -/

namespace Sys2Proof.Machine

/-- A flash byte; an erased cell reads 0xFF (log entry 5). -/
def flashByte (f : Tab Byte) (a : Nat) : Byte := tgetD f a 0xFF#8

/-- The canonical form of the flash: addresses strictly rising, and no cell listed that reads erased. -/
abbrev Memory.wf (f : Tab Byte) : Prop := tabRising f = true ∧ ∀ c ∈ f, c.2 ≠ 0xFF#8

/-- Bytes of the flash from an address. -/
def flashRead (f : Tab Byte) (a n : Nat) : Bytes := (List.range n).map fun i => flashByte f (a + i)

/-- Erase `n` bytes from `a`. -/
def flashEraseAt (f : Tab Byte) (a n : Nat) : Tab Byte := f.filter fun c => !(a ≤ c.1 && c.1 < a + n)

/-- Program bytes: a 1 bit may become 0, never the other way. -/
def flashProgramAt (f : Tab Byte) (a : Nat) (b : Bytes) : Tab Byte :=
  (List.zip (List.range b.length) b).foldl (fun f ib => tput f 0xFF#8 (a + ib.1) (flashByte f (a + ib.1) &&& ib.2)) f

/-- Put the flash cells. -/
def Dev.setFlash (d : Dev) (f : Tab Byte) : Dev := { d with board := { d.board with flash := f } }

/-- `n` free bytes, from the draw numbered `k` on (log entry 6). -/
def freeBytes (k n : Nat) : Bytes := (List.range n).map fun i => (Config.draw (k + i / 64)).extractLsb' (8 * (i % 64)) 8

/-- What a failed erase or program leaves in a region: free values (log entry 21). -/
def Dev.scramble (d : Dev) (a n : Nat) : Dev :=
  let f := d.board.flash
  let new := (List.zip (List.range n) (freeBytes d.fresh n)).filterMap fun (x : Nat × Byte) =>
    if x.2 == 0xFF#8 then none else some (a + x.1, x.2)
  { d.setFlash ((f.filter fun c => c.1 < a) ++ new ++ f.filter fun c => a + n ≤ c.1) with fresh := d.fresh + (n + 63) / 64 }

/-- What a power loss leaves in a region that was being written: free values that cannot begin a valid record (R281; log entry
21). -/
def Dev.breakOff (d : Dev) (a n : Nat) : Dev :=
  let d := d.scramble a n
  d.setFlash (flashEraseAt d.board.flash a 1)

/-- Addresses of the regions the device writes (R596). -/
def ckSlotAddr (i : Nat) : Nat := 0x1000000 + i * 0x40000
def floorAddr (i : Nat) : Nat := 0x1080000 + i * 0x1000
def lifeAddr (i : Nat) : Nat := 0x1082000 + i * 0x1000

/-- A life record's SEQ and BASE, when its MAGIC and CRC fit (R598). -/
def lifeRecord (f : Tab Byte) (i : Nat) : Option (Nat × Nat) :=
  let b := flashRead f (lifeAddr i) 16
  if natOfBytes (b.take 4) == 0x464A5857 && b.drop 12 == fcsOf (b.take 12) then
    some (natOfBytes ((b.drop 4).take 4), natOfBytes ((b.drop 8).take 4))
  else none

/-- Cells of a TALLY that are not erased: only these hold 0 bits. -/
def tallyCells (f : Tab Byte) (i : Nat) : Tab Byte := f.filter fun c => lifeAddr i + 32 ≤ c.1 && c.1 < lifeAddr i + 4096

/-- Number of 0 bits of a TALLY. -/
def tallyZeros (f : Tab Byte) (i : Nat) : Nat :=
  ((tallyCells f i).map fun c => ((List.range 8).filter fun j => !c.2.getLsbD j).length).sum

/-- The life record in use, by higher SEQ, and the count it gives (R598). -/
def lifeCount (f : Tab Byte) : Option Nat × Nat :=
  match lifeRecord f 0, lifeRecord f 1 with
  | some (s0, b0), some (s1, b1) =>
    if s0 < s1 then (some 1, b1 + tallyZeros f 1) else (some 0, b0 + tallyZeros f 0)
  | some (_, b0), none => (some 0, b0 + tallyZeros f 0)
  | none, some (_, b1) => (some 1, b1 + tallyZeros f 1)
  | none, none => (none, 0)

/-- A life record written with a full TALLY (R598). -/
def lifeWrite (f : Tab Byte) (i seq base : Nat) : Tab Byte :=
  let b := bytesOfNat 4 0x464A5857 ++ bytesOfNat 4 seq ++ bytesOfNat 4 base
  flashProgramAt (flashEraseAt f (lifeAddr i) 4096) (lifeAddr i) (b ++ fcsOf b)

/-- The first bit of a TALLY that is 1, from bit 7 of byte 32 on, among the `n` bits after bit `z`; `z + n` when none is. -/
def tallyFirst (f : Tab Byte) (i z : Nat) : Nat → Nat
  | 0 => z
  | n + 1 => if (flashByte f (lifeAddr i + 32 + z / 8)).getLsbD (7 - z % 8) then z else tallyFirst f i (z + 1) n

/-- The first 1 bit of a TALLY is programmed to 0 (R598): one of as many bits as it has 0 bits, and the next. -/
def tallyProgram (f : Tab Byte) (i : Nat) : Tab Byte :=
  let z := tallyFirst f i 0 (tallyZeros f i)
  flashProgramAt f (lifeAddr i + 32 + z / 8) [BitVec.ofNat 8 (0xFF - 2 ^ (7 - z % 8))]

/-- The lifetime count rises by one (R598). -/
def Dev.lifeRise (d : Dev) : Dev :=
  let f := d.board.flash
  let c := lifeCount f
  let f' := match c.1 with
    | none => lifeWrite f 0 1 (c.2 + 1)
    | some i =>
      if tallyZeros f i < 32512 then tallyProgram f i
      else lifeWrite f (1 - i) (((lifeRecord f i).getD (0, 0)).1 + 1) (c.2 + 1)
  let tally := match c.1 with | some i => decide (tallyZeros f i < 32512) | none => false
  let n := (lifeCount f').2
  let w := d.rd .BOOT_LIFE_WARN
  let d := { d.setFlash f' with boot := { d.boot with life := n } }.pmcSpread 1 2 (if tally then 1 else 16)
  let d := if n ≥ w && c.2 < w then d.irq .BOOT_INT_STAT 2 else d
  d.setCond 19 (w ≤ n)

/-- Code of a life-cycle state (R278, R285, R599). -/
def lcCode : LifeCycle → Nat
  | .vendor => 0
  | .owner => 1
  | .ret => 2

/-- A valid floor record's SEQ and F (R599). -/
def Dev.floorRecord (d : Dev) (i : Nat) : Option (Nat × Nat) :=
  let b := flashRead d.board.flash (floorAddr i) 64
  if natOfBytes (b.take 6) == 0x464A58460001 && natOfBytes ((b.drop 6).take 1) == d.vault.epoch &&
     natOfBytes ((b.drop 7).take 1) == lcCode d.vault.lc &&
     natOfBytes (b.drop 48) == (cmac d.vault.slotMac (b.take 48)).toNat then
    some (natOfBytes ((b.drop 8).take 4), natOfBytes ((b.drop 12).take 4))
  else none

/-- The 64 bytes of a floor record (R599). -/
def Dev.floorBytes (d : Dev) (seq f : Nat) : Bytes :=
  let b := bytesOfNat 6 0x464A58460001 ++ [BitVec.ofNat 8 d.vault.epoch, BitVec.ofNat 8 (lcCode d.vault.lc)] ++
    bytesOfNat 4 seq ++ bytesOfNat 4 f ++ List.replicate 32 0#8
  b ++ bytesOfNat 16 (cmac d.vault.slotMac b).toNat

/-- A record the device must write: the one with the lower sequence number, or one that is not valid (R220). -/
def olderRecord (r : List (Option (Nat × Nat))) : Nat :=
  match r.getD 0 none, r.getD 1 none with
  | some (a, _), some (b, _) => if a ≤ b then 0 else 1
  | some _, none => 1
  | none, _ => 0

/-- Highest sequence number of the valid records. -/
def newestSeq (r : List (Option (Nat × Nat))) : Nat := r.foldl (fun m x => match x with | some (s, _) => max m s | none => m) 0

/-- F of the valid record with the higher sequence number, or 0 (R219). -/
def newestFloor (r : List (Option (Nat × Nat))) : Nat :=
  match r.getD 0 none, r.getD 1 none with
  | some (a, f), some (b, g) => if a < b then g else f
  | some (_, f), none => f
  | none, some (_, g) => g
  | none, none => 0

/-- Write a floor record holding `f` over the older record: erase, program, read back (R220, R599). -/
def Dev.writeFloorRecord (d : Dev) (f : Nat) : Dev :=
  let i := olderRecord d.floor.recs
  let seq := newestSeq d.floor.recs + 1
  let fl := flashProgramAt (flashEraseAt d.board.flash (floorAddr i) 4096) (floorAddr i) (d.floorBytes seq f)
  let d := (((d.setFlash fl).pmcSpread 1 2 64).pmcSpread 1 1 64).lifeRise
  { d with floor := { d.floor with recs := d.floor.recs.set i (d.floorRecord i) } }

/-! CK slots. -/

/-- OWNER_HASH as a CK slot carries it: zero outside OWNER (R278). -/
def Dev.ckOwnerHash (d : Dev) : Bytes :=
  if d.vault.lc == .owner then
    match tget d.otp.ownerHash d.vault.epoch with
    | some (h, _) => bytesOfNat 48 h.toNat
    | none => List.replicate 48 0#8
  else List.replicate 48 0#8

/-- The bytes of a CK slot with its MAC (R278). -/
def Dev.ckSlotBytes (d : Dev) (t : Tab (BitVec 256)) (seq : Nat) : Bytes :=
  let h := bytesOfNat 6 0x464A584B0001 ++ bytesOfNat 2 t.length ++ bytesOfNat 4 seq ++
    [BitVec.ofNat 8 d.vault.epoch, BitVec.ofNat 8 (lcCode d.vault.lc), 0#8, 0#8] ++ d.ckOwnerHash
  let e := t.flatMap fun x =>
    wrapKw d.vault.ckWrap (bytesOfNat 2 x.1 ++ bytesOfNat 2 2 ++ bytesOfNat 4 seq ++ bytesOfNat 32 x.2.toNat)
  h ++ e ++ bytesOfNat 16 (cmac d.vault.slotMac (h ++ e)).toNat

/-- SEQ and COUNT of a CK slot whose header and MAC fit (R279). -/
def Dev.ckHeader (d : Dev) (i : Nat) : Option (Nat × Nat) :=
  let f := d.board.flash
  let h := flashRead f (ckSlotAddr i) 64
  let n := natOfBytes ((h.drop 6).take 2)
  if natOfBytes (h.take 6) == 0x464A584B0001 && n ≤ 4096 &&
     natOfBytes ((h.drop 12).take 1) == d.vault.epoch && natOfBytes ((h.drop 13).take 1) == lcCode d.vault.lc &&
     h.drop 16 == d.ckOwnerHash &&
     natOfBytes (flashRead f (ckSlotAddr i + 64 + 48 * n) 16) ==
       (cmac d.vault.slotMac (flashRead f (ckSlotAddr i) (64 + 48 * n))).toNat then
    some (natOfBytes ((h.drop 8).take 4), n)
  else none

/-- COUNT of a CK slot. -/
def Dev.ckCount (d : Dev) (i : Nat) : Nat := natOfBytes (flashRead d.board.flash (ckSlotAddr i + 6) 2)

/-- The CK slot with the higher SEQ of those whose header and MAC fit (R279). -/
def Dev.ckNewer (d : Dev) : Nat :=
  let s0 : Nat := ((d.ckHeader 0).map (·.1)).getD 0
  let s1 : Nat := ((d.ckHeader 1).map (·.1)).getD 0
  if s0 < s1 then 1 else 0

/-- Unwrap the entries of a CK slot; none when an entry does not fit (R279). -/
def Dev.ckEntries (d : Dev) (i seq n : Nat) : Option (Tab (BitVec 256)) :=
  (List.range n).foldl (fun acc j =>
    match acc with
    | none => none
    | some t =>
      let u := unwrapKw d.vault.ckWrap (flashRead d.board.flash (ckSlotAddr i + 64 + 48 * j) 48)
      let ix := natOfBytes (u.2.take 2)
      let last := (t.getLast?.map (·.1 + 1)).getD 0
      if u.1 == 0xA6A6A6A6A6A6A6A6#64 && natOfBytes ((u.2.drop 2).take 2) == 2 &&
         natOfBytes ((u.2.drop 4).take 4) == seq && last ≤ ix && ix < 4096 then
        some (t ++ [(ix, BitVec.ofNat 256 (natOfBytes (u.2.drop 8)))])
      else none) (some [])

/-- Take a CK slot into the table, when it is valid throughout. -/
def Dev.ckTake (d : Dev) (i : Nat) : Option Dev :=
  match d.ckHeader i with
  | none => none
  | some (seq, n) =>
    (d.ckEntries i seq n).map fun t =>
      { d with vault := { d.vault with ck := t, ckValid := true, ckSlot := i, ckSeq := seq } }

/-- Engine blocks for the header and MAC of a CK slot whose COUNT is in range, and for an unwrap of its entries up to the first that
does not fit (R279). -/
def Dev.ckCheckBlocks (d : Dev) (i : Nat) : Nat :=
  let n := d.ckCount i
  if n ≤ 4096 then 3 * n + 5 else 0
def Dev.ckUnwrapBlocks (d : Dev) (i : Nat) : Nat :=
  match d.ckHeader i with
  | none => 0
  | some (seq, n) =>
    30 * (((List.range n).find? fun j => (d.ckEntries i seq (j + 1)).isNone).map (· + 1) |>.getD n)

/-- Engine blocks of the vault's work on the CK slots at start (R279). -/
def Dev.ckLoadBlocks (d : Dev) : Nat :=
  let a := d.ckNewer
  d.ckCheckBlocks 0 + d.ckCheckBlocks 1 + d.ckUnwrapBlocks a + if (d.ckTake a).isNone then d.ckUnwrapBlocks (1 - a) else 0

/-- At start: the valid slot with the higher SEQ, else the other, else an empty table (R279). -/
def Dev.ckLoad (d : Dev) : Dev :=
  let a := d.ckNewer
  ((d.ckTake a).orElse fun _ => d.ckTake (1 - a)).getD
    { d with vault := { d.vault with ck := [], ckValid := false, ckSeq := 0 } }

end Sys2Proof.Machine
end

