-- ==== Sys2Proof/Machine/Coaches.lean ====
section
/-! DEFINITION. Coaches: kinds and slots (R207-R212), packet numbers (R225-R230), stage switches (R214-R217), jump probes
(R224), the stage floor (R219, R220) and the derivation queue (R211). -/

namespace Sys2Proof.Machine

/-- The kind of a coach in the settings in effect (R210). -/
def Dev.kind (d : Dev) (c : Nat) : CoachKind :=
  let w := d.rd .CO_CTL [c]
  if c == 0 || !(bit w 31 || bit w 30) then .idle else if bit w 29 then .delivered else .derived

/-- Next transmit PN (R228). -/
def pnOf (x : CoachDyn) : Nat := x.hi * 65536 + x.lo

/-- SOFT and HARD as PNs (R225, R226). -/
def Dev.softLim (d : Dev) (c : Nat) : Nat := d.rd .CO_SOFT_LIM [c] * 2 ^ 32
def Dev.hardLim (d : Dev) (c : Nat) : Nat := d.rd .CO_HARD_LIM [c] * 2 ^ 32

/-- The slot that holds a stage. -/
def slotFor (x : CoachDyn) (s : Nat) : Option Slot :=
  match x.slotA with
  | some a => if a.stage == s then some a else
    (match x.slotB with | some b => if b.stage == s then some b else none | none => none)
  | none => match x.slotB with | some b => if b.stage == s then some b else none | none => none

/-- Replace the slot that holds the stage of `v`. -/
def putSlot (x : CoachDyn) (v : Slot) : CoachDyn :=
  if (x.slotA.map (·.stage)) == some v.stage then { x with slotA := some v }
  else if (x.slotB.map (·.stage)) == some v.stage then { x with slotB := some v } else x

/-- Load a slot into the free place. -/
def loadSlot (x : CoachDyn) (v : Slot) : CoachDyn :=
  if x.slotA.isNone then { x with slotA := some v } else { x with slotB := some v }

/-- Keep only the slot of a stage. -/
def keepSlot (x : CoachDyn) (s : Nat) : CoachDyn :=
  { x with slotA := if (x.slotA.map (·.stage)) == some s then x.slotA else none,
           slotB := if (x.slotB.map (·.stage)) == some s then x.slotB else none }

/-- A slot as it is loaded (R207). -/
def freshSlot (key : BitVec 256) (salt : BitVec 96) (stage : Nat) : Slot :=
  { key := key, salt := salt, stage := stage, nextPn := 1, rxBad := false }

/-- The PN restarts: HI = 0, LO = 1, MIRROR = 0; a chock ends (R225, R227, R228). -/
def restartPn (x : CoachDyn) : CoachDyn :=
  { x with hi := 0, lo := 1, mirror := 0, mirBad := false, pnErr := [], chock := false, cause := .none, hitHard := false }

/-- A coach of a Thatch line port: some port's superframe coach (R216). -/
def Dev.isThatchCoach (d : Dev) (c : Nat) : Bool :=
  (List.range 32).any fun n => d.exists_ (32 + n) && d.thatchMode (32 + n) && d.fld .THP_CTL [n] 15 0 == c

/-! Packet numbers. -/

/-- Move the counter on by one: LO wraps into HI, MIRROR first (R228). -/
def bumpPn (x : CoachDyn) : CoachDyn :=
  if x.lo + 1 < 65536 then { x with lo := x.lo + 1 }
  else { x with mirror := if x.mirror ≤ x.hi + 1 then x.hi + 5 else x.mirror, hi := x.hi + 1, lo := 0 }

/-- Dray that holds a coach's PN counter (R228). -/
def Dev.pnDray (d : Dev) (c : Nat) : Nat := d.fld .CO_ROUTE [c] 4 0 / 8

/-- A device that takes actions of R229 and R230 itself: not the standby of a pair (R231). -/
def Dev.actsOnErrors (d : Dev) : Bool := d.pair.state != .standby && d.pair.state != .syncing

/-- Handle an error found at the next PN (R229, R231). -/
def Dev.pnError (d : Dev) (c : Nat) (e : PnErr) : Dev :=
  if !d.actsOnErrors then
    match e with
    | .corrected => d.raise (32 + d.pnDray c)
    | _ => (d.raise 42).notIntact
  else match e with
  | .corrected => d.raise (32 + d.pnDray c)
  | .loOrHi =>
    let d := d.modCo c fun x => { x with mirror := x.mirror + 5, hi := x.mirror + 1, lo := 0,
                                         hitHard := x.hitHard || d.hardLim c ≤ (x.mirror + 1) * 65536 }
    let d := d.recEvent ([2#8, 0#8] ++ bytesOfNat 2 c ++ bytesOfNat 6 (d.co c).hi ++ bytesOfNat 6 (d.co c).mirror)
    (d.coCount c 15).raise (36 + d.pnDray c)
  | .mirror =>
    let d := d.recEvent ([4#8, 0#8] ++ bytesOfNat 2 c)
    (d.modCo c fun x => { x with mirBad := true, errDue := true }).raise 42

/-- Code errors reach PN counters: each is found when the coach next gives a PN (R229). -/
def Dev.pnFlips (d : Dev) (l : List (Nat × PnErr)) : Dev :=
  l.foldl (fun (d : Dev) (e : Nat × PnErr) =>
    if e.1 < 65536 then d.modCo e.1 fun x => { x with pnErr := x.pnErr ++ [e.2] } else d) d

/-- The errors that the next PN finds are handled: each corrected one, and one in MIRROR, which stands for those in HI and LO, or
one skip (R229). -/
def Dev.pnFound (d : Dev) (c : Nat) : Dev :=
  let l := (d.co c).pnErr
  if l.isEmpty then d else
  let d := d.modCo c fun x => { x with pnErr := [] }
  let d := (l.filter (· == PnErr.corrected)).foldl (fun d e => d.pnError c e) d
  if l.contains .mirror then d.pnError c .mirror else if l.contains .loOrHi then d.pnError c .loOrHi else d

/-- Give the next transmit PN of a coach, or none where R225 or R229 refuses it. -/
def Dev.takePn (d : Dev) (c : Nat) : Dev × Option Nat :=
  let d := d.pnFound c
  let x := d.co c
  if x.mirBad then (d, none)
  else if d.hardLim c ≤ pnOf x then (d.setCo c { x with hitHard := true }, none)
  else
    let y := bumpPn x
    (d.setCo c { y with hitHard := y.hitHard || d.hardLim c ≤ pnOf y }, some (pnOf x))

/-- The coach may transmit: TX_EN, no chock, a slot for its transmit stage (R209). -/
def Dev.canSend (d : Dev) (c : Nat) : Bool :=
  let x := d.co c
  d.flag .CO_CTL [c] 31 && !x.chock && (slotFor x x.stage).isSome && c != 0

/-- FLAGS.NXT and CO_STATE.NXT (R163, R238): R215 sets it by the move to READY that a loaded next-stage slot makes
and clears it by the move to TX_AHEAD. -/
def Dev.nextLoaded (d : Dev) (c : Nat) : Bool := (d.co c).sw == SwState.ready

/-- The slot of a stage receives nothing any more (R230). -/
def Dev.slotShut (d : Dev) (c stage : Nat) : Bool := match slotFor (d.co c) stage with | some s => s.rxBad | none => false

/-- A uncorrectable NEXT_PN: RX_BAD, and an advance falls due (R230, R231). -/
def Dev.nextPnError (d : Dev) (c stage : Nat) : Dev :=
  if !d.actsOnErrors then (d.raise 42).notIntact
  else
    let x := d.co c
    let d := d.recEvent ([3#8, 0#8] ++ bytesOfNat 2 c ++ [if (x.slotA.map (·.stage)) == some stage then 0#8 else 1#8])
    let x := match slotFor x stage with | some v => putSlot x { v with rxBad := true } | none => x
    (d.setCo c { x with errDue := true }).raise 42

/-! The derivation queue. -/

/-- Raise a derivation request; it joins the queue at the boundary (R211). -/
def Dev.askDerive (d : Dev) (r : DrvReq) : Dev :=
  if 0xFFFFFFFF < r.stage then d else { d with vault := { d.vault with drvNew := d.vault.drvNew ++ [r] } }

/-- Order of requests of one boundary: by coach, a probe after the coach's other requests (R211). -/
def reqBefore (a b : DrvReq) : Bool := a.coach < b.coach || (a.coach == b.coach && a.probe.isNone && b.probe.isSome)

/-- Place a request in that order. -/
def placeReq (r : DrvReq) : List DrvReq → List DrvReq
  | [] => [r]
  | q :: l => if reqBefore r q then r :: q :: l else q :: placeReq r l

/-- The requests raised join the queue (R211); PROBE is set for a probe (R224). -/
def Dev.joinQueue (d : Dev) : Dev :=
  let rs := d.vault.drvNew.foldl (fun l r => placeReq r l) []
  let d := rs.foldl (fun d r => if r.probe.isSome then d.modCo r.coach fun x => { x with probe := true } else d) d
  { d with vault := { d.vault with drv := d.vault.drv ++ rs, drvNew := [] } }

/-- CK_INDEX of a coach (R235). -/
def Dev.ckIndex (d : Dev) (c : Nat) : Nat := d.fld .CO_KEY [c] 11 0

/-- The derivation at the head runs in this beat; one whose index holds no key uses no block and waits (R211, R277). -/
def Dev.runDerivation : List DrvReq → Dev → Dev
  | [], d => { d with vault := { d.vault with drv := [] } }
  | r :: rest, d =>
    match tget d.vault.ck (d.ckIndex r.coach) with
    | none => Dev.runDerivation rest
        ({ d with vault := { d.vault with drvWait := d.vault.drvWait ++ [r] } }.irq .VLT_INT_STAT 2)
    | some ck =>
      let ks := deriveStage ck r.coach r.stage
      let slot := freshSlot ks.1 ks.2 r.stage
      ({ d with vault := { d.vault with drv := rest, drvBeat := true, drvDone := some (r, slot) } }.pmcEvent 2 2).pmcSpread 2 1 4

/-- A coach can take the key of a stage: its first, or the one after its only slot's (R208). -/
def slotWanted (x : CoachDyn) (s : Nat) : Bool :=
  match [x.slotA, x.slotB].filterMap id with
  | [] => x.sw == .empty
  | [v] => v.stage + 1 == s
  | _ => false

/-- Load the slot of a derivation completed in the beat that ends (R208, R211, R224). -/
def Dev.loadDerived (d : Dev) (n : Nat) : Dev :=
  match d.vault.drvDone with
  | none => d
  | some (r, s) =>
    let d := { d with vault := { d.vault with drvDone := none } }
    match r.probe with
    | some p =>
      { d with coach := { d.coach with probe := tset d.coach.probe p ⟨r.coach, r.stage, some s, n⟩ } }
    | none => if d.kind r.coach == .derived && slotWanted (d.co r.coach) r.stage then d.modCo r.coach fun x => loadSlot x s else d

/-! The floor. -/

/-- Initial stage of a derived coach (R219). -/
def Dev.startStage (d : Dev) (c : Nat) : Nat := max (max 1 (Config.stageInit c)) (d.floor.value + 1)

/-- Begin a floor write with F' in beat n (R220); F' is not limited to 32 bits, the record keeps its low ones (log entry 86). -/
def Dev.beginFloorWrite (d : Dev) (f n : Nat) : Dev :=
  { d with floor := { d.floor with write := some ⟨f, n, false, false, false, false⟩ } }

/-- Stages that a coach transmits under or is about to: its transmit stage, the slot it starts with, its jump target (R219,
R220). -/
def Dev.stagesNear (d : Dev) (x : CoachDyn) : List Nat :=
  (if x.sw == .empty then ([x.slotA, x.slotB].filterMap id).map (·.stage) else [x.stage]) ++
  (match x.jump.bind (tget d.coach.probe) with | some p => [p.stage] | none => [])

/-- A derived coach's transmit stage, start stage or jump target has come within half a step of F (R220). -/
def Dev.floorNear (d : Dev) : Bool :=
  let lim := d.floor.value - stageStep / 2
  d.coach.dyn.any fun cx => d.kind cx.1 == .derived && (d.stagesNear cx.2).any fun s => lim ≤ s

/-- The floor write of R220 begins when it is needed and none is under way. -/
def Dev.floorCheck (d : Dev) (n : Nat) : Dev :=
  if d.floor.write.isNone && d.floorNear then d.beginFloorWrite (d.floor.value + stageStep) n else d

/-- A floor write raises F: the active's event names it, or a device that leads wrote it in time (R220, R231, R487). -/
def Dev.floorCounts (d : Dev) (w : FloorWrite) : Bool := w.told || (!d.partnerState && w.inTime)

/-- F' takes effect 65,536 beats after its write began; a write that has not completed by then is F015, and F stays unless the
active's event raises it (R220, R231). -/
def Dev.floorEffect (d : Dev) (n : Nat) : Dev :=
  match d.floor.write with
  | none => d
  | some w =>
    if n < w.began + 65536 then d
    else
      let e := { d with floor := { d.floor with value := if d.floorCounts w then w.f else d.floor.value, write := none } }
      if w.done && (w.inTime || d.partnerState) then e else e.raise 15

/-- In a pair state a floor write must end by beat E - 3 to count (R487). -/
def Dev.floorInTime (d : Dev) (b : Nat) : Bool :=
  d.pair.state == .solo || d.pair.state == .fenced || d.beat + 3 ≤ b + 65536

/-- The flash write of F' ended (R220). A failed one, which erased its region too, leaves it free (R598); one in time is in the
active's record of the beat (R231). -/
def Dev.floorWritten (d : Dev) (ok : Bool) : Dev :=
  match d.floor.write with
  | none => d
  | some w =>
    if w.done || w.failed then d
    else if !ok then
      let i := olderRecord d.floor.recs
      let d := d.lifeRise.scramble (floorAddr i) 4096
      { d with floor := { d.floor with recs := d.floor.recs.set i (d.floorRecord i), write := some { w with failed := true } } }
    else
      let t := d.floorInTime w.began
      let d := d.writeFloorRecord w.f
      let d := if t then
          d.recEvent ([5#8, 0#8, 0#8, 0#8] ++ bytesOfNat 4 w.f ++ bytesOfNat 8 (w.began + 65536))
        else d
      { d with floor := { d.floor with write := some { w with done := true, inTime := t } } }

/-! Stage switches. -/

/-- A transmit stage the floor allows a coach (R220). -/
def Dev.floorAllows (d : Dev) (c s : Nat) : Bool := d.kind c != .derived || s ≤ d.floor.value

/-- A derived coach queues a stage. -/
def Dev.queueStage (d : Dev) (c s : Nat) : Dev := if d.kind c == .derived then d.askDerive ⟨c, s, none⟩ else d

/-- The coach begins transmitting stage s at boundary n (R215, R225, R228). -/
def enterStage (x : CoachDyn) (s n : Nat) (sw : SwState) : CoachDyn :=
  { restartPn x with stage := s, began := n, sw := sw, advPend := false, grace := if sw == .grace then 64 else 0 }

/-- An advance falls due at boundary n: soft limit, period, request, hard limit or counter error (R214, R230). Nothing falls due
for a coach in EMPTY; a request that reaches it there is used up (log entry 83). -/
def Dev.advanceDue (d : Dev) (c n : Nat) : Bool :=
  let x := d.co c
  let per := d.fld .CO_ADV [c] 15 0
  x.sw != .empty &&
  (d.softLim c ≤ pnOf x || (per != 0 && per * 2 ^ 20 ≤ n - x.began) || x.advReq || x.hitHard || x.errDue)

/-- Requests that `f` takes leave the derivation queue (R208, R215). -/
def Dev.dropRequests (d : Dev) (f : DrvReq → Bool) : Dev :=
  let keep := fun (l : List DrvReq) => l.filter fun r => !f r
  { d with vault := { d.vault with
    drv := keep d.vault.drv, drvWait := keep d.vault.drvWait, drvNew := keep d.vault.drvNew,
    drvDone := d.vault.drvDone.filter fun r => !f r.1 } }

/-- Clear pipe k's probe slot; the coach shows PROBE while another pipe probes for it (R224, R617). A probe derivation that is
still queued stays queued (log entry 84). -/
def Dev.clearProbe (d : Dev) (k : Nat) : Dev :=
  match tget d.coach.probe k with
  | none => d
  | some p =>
    let d := { d with coach := { d.coach with probe := tdel d.coach.probe k } }
    d.modCo p.coach fun x =>
      { x with probe := x.probe && d.coach.probe.any fun e => e.2.coach == p.coach,
               jump := if x.jump == some k then none else x.jump }

/-- A coach's slots are cleared and it starts again, CO_STAGE and CO_TXPN at 0 until it transmits; a derived coach asks for its
start stage (R215, R219; log entry 60). -/
def Dev.restartCoach (d : Dev) (c : Nat) : Dev :=
  let x := d.co c
  let d := d.dropRequests fun r => r.coach == c
  let d := (d.coach.probe.filter fun e => e.2.coach == c).foldl (fun (d : Dev) (e : Nat × Probe) => d.clearProbe e.1) d
  let d := d.setCo c { CoachDyn.init with tc := x.tc, tp := x.tp, tLast := x.tLast, began := x.began }
  d.queueStage c (d.startStage c)

/-- The coach takes the stage of pipe k's probe slot: its only slot, ONE, PN 1; a request for the stage it leaves behind is
void (R208, R224). An advance that was due or held is void too (log entry 85). -/
def Dev.takeProbe (d : Dev) (c n k : Nat) (s : Slot) : Dev :=
  let d := (d.clearProbe k).dropRequests fun r => r.coach == c && r.probe.isNone
  let x := enterStage { d.co c with slotA := some s, slotB := none, jump := none } s.stage n .one
  (d.setCo c { x with errDue := false, advReq := false, verified := none }).queueStage c (s.stage + 1)

/-- The hard-limit and mirror chocks of a coach that made no switch (R225, R229). -/
def chockIfDue (x : CoachDyn) : CoachDyn :=
  if x.mirBad then { x with chock := true, cause := .mirrorErr, advPend := true }
  else if x.hitHard then { x with chock := true, cause := .hardLimit, advPend := true } else x

/-- The moves of R215 of one coach at the boundary that starts beat n. -/
def Dev.switchMove (d : Dev) (c n : Nat) : Dev :=
  let x := d.co c
  let due := d.advanceDue c n || x.advPend
  let pend := fun (x : CoachDyn) => if due then { x with advPend := true } else x
  match x.sw with
  | .empty =>
    match x.slotA, x.slotB with
    | none, none => d
    | a, b =>
      let sa := (a.map (·.stage)).getD 0xFFFFFFFF
      let sb := (b.map (·.stage)).getD 0xFFFFFFFF
      let s := min sa sb
      if d.floorAllows c s then
        let d := d.setCo c (enterStage x s n .one)
        d.queueStage c (s + 1)
      else d.setCo c { x with advPend := true }
  | .one =>
    let x := pend x
    if (slotFor x (x.stage + 1)).isSome then d.setCo c { chockIfDue x with sw := .ready }
    else d.setCo c (chockIfDue x)
  | .ready =>
    let seen := x.verified == some (x.stage + 1)
    -- a move that the floor holds keeps its event (R220)
    let open_ := !d.isThatchCoach c || x.lastNxt
    if !d.floorAllows c (x.stage + 1) then
      d.setCo c (chockIfDue { x with advPend := x.advPend || due || seen })
    else if seen then d.setCo c (enterStage x (x.stage + 1) n .grace)
    else if due && open_ then d.setCo c (enterStage x (x.stage + 1) n .txAhead)
    else d.setCo c (chockIfDue (pend x))
  | .txAhead =>
    let x := chockIfDue (pend x)
    if x.verified == some x.stage then d.setCo c { x with sw := .grace, grace := 64 } else d.setCo c x
  | .grace =>
    let x := chockIfDue (pend x)
    if x.grace ≤ 1 then
      let d := d.setCo c { keepSlot x x.stage with sw := .one, grace := 0 }
      d.queueStage c (x.stage + 1)
    else d.setCo c { x with grace := x.grace - 1 }

/-- The events of the beat that ends are used up, but for a verified unit of a stage that the floor holds (R215, R220). -/
def Dev.endEvents (d : Dev) (c : Nat) : Dev :=
  d.modCo c fun x =>
    { x with verified := if x.sw == .ready && !d.floorAllows c (x.stage + 1) then x.verified else none,
             advReq := false, hitHard := false, errDue := false }

/-- Step 3 of R40 for one coach at the boundary that starts beat n: restart, jump or the moves of R215. -/
def Dev.switchCoach (d : Dev) (c n : Nat) : Dev :=
  let x := d.co c
  if x.restart then d.restartCoach c
  else
    let hit := x.jump.bind fun k => (tget d.coach.probe k).bind fun p => p.slot.map fun s => (k, s)
    match hit with
    | some (k, s) =>
      -- a coach only moves to a higher stage (R221); one that the floor holds makes its other moves (R220)
      if s.stage ≤ x.stage then (((d.clearProbe k).switchMove c n)).endEvents c
      else if d.floorAllows c s.stage then (d.takeProbe c n k s).endEvents c
      else ((d.switchMove c n).modCo c fun x => { x with advPend := true }).endEvents c
    | none => (d.switchMove c n).endEvents c

/-- Step 3 of R40 for every coach that has running state. -/
def Dev.switchAll (d : Dev) (n : Nat) : Dev := d.coach.dyn.foldl (fun d cx => d.switchCoach cx.1 n) d

/-! Events of the Inbound side. -/

/-- A unit of stage q verified under the coach's own slot (R215). -/
def Dev.noteVerified (d : Dev) (c q : Nat) : Dev :=
  d.modCo c fun x =>
    { x with verified := match x.verified with | some v => some (max v q) | none => some q }

/-- Whether a full stage asks for a jump probe in Inbound pipe k: a coach in EMPTY has no transmit stage to jump from (R224;
log entry 59). -/
def Dev.probeWanted (d : Dev) (k c q : Nat) : Bool :=
  let x := d.co c
  d.kind c == .derived && x.sw != .empty && x.stage + 1 < q && q ≤ x.stage + 65536 && q ≤ 0xFFFFFFFF &&
  (tget d.coach.probe k).isNone

/-- Request the derivation of stage q into pipe k's probe slot (R224). -/
def Dev.askProbe (d : Dev) (k c q : Nat) : Dev :=
  let d := { d with coach := { d.coach with probe := tset d.coach.probe k ⟨c, q, none, 0⟩ } }
  d.askDerive ⟨c, q, some k⟩

/-- The probe slot of pipe k, when it is coach c's of stage q. -/
def Dev.probeSlot (d : Dev) (k c q : Nat) : Option Slot :=
  (tget d.coach.probe k).bind fun p => if p.coach == c && p.stage == q then p.slot else none

/-- A unit verified under pipe k's probe slot: the coach takes the stage at the next boundary that allows it; until then the
probe slot receives (R224). -/
def Dev.probeHit (d : Dev) (k c : Nat) : Dev := d.modCo c fun x => { x with jump := some (x.jump.getD k) }

/-- A probe slot in which nothing verified within 1,024 beats of its loading, at boundary n (R224). -/
def Dev.expireProbe (d : Dev) (n k : Nat) : Dev :=
  match tget d.coach.probe k with
  | some p => if p.slot.isSome && p.loadedAt + 1024 ≤ n && (d.co p.coach).jump != some k then d.clearProbe k else d
  | none => d

/-! Deliveries. -/

/-- A KIND 1 delivery at its apply boundary (R212). -/
def Dev.loadDelivery (d : Dev) (v : Delivery) : Dev :=
  let x := d.co v.target
  let s := freshSlot v.key v.salt v.stage
  let loaded := [x.slotA, x.slotB].filterMap id
  let fits := d.kind v.target == .delivered &&
    ((x.sw == .empty && loaded.isEmpty) ||
     (x.sw == .one && loaded.length == 1 && v.stage == x.stage + 1) ||
     (x.sw == .empty && loaded.length == 1 && (loaded.map (·.stage + 1)) == [v.stage]))
  if fits then d.setCo v.target (loadSlot x s) else d.irq .CO_STATE 23 [v.target]

/-- Some derived coach names a CK index (R276). -/
def Dev.ckInUse (d : Dev) (i : Nat) : Bool :=
  d.words.any fun kv =>
    match regAt kv.1 with
    | some (.CO_CTL, [c]) => d.kind c == .derived && d.ckIndex c == i
    | _ => false

/-- Write a key into a CK index, which wakes the derivations that wait for it, or empty the index (R276, R277). -/
def Dev.setCk (d : Dev) (i : Nat) (key : Option (BitVec 256)) : Dev :=
  match key with
  | some k =>
    let wake := d.vault.drvWait.filter fun r => d.ckIndex r.coach == i
    let d := { d with vault := { d.vault with
      ck := tset d.vault.ck i k, drvWait := d.vault.drvWait.filter fun r => d.ckIndex r.coach != i } }
    wake.foldl (fun d r => d.askDerive r) d
  | none => { d with vault := { d.vault with ck := tdel d.vault.ck i } }

/-- A KIND 2 or 3 delivery at its apply boundary (R276). -/
def Dev.updateCk (d : Dev) (v : Delivery) : Dev :=
  if (tget d.vault.ck v.target).isSome && d.ckInUse v.target then d.irq .VLT_INT_STAT 2
  else d.setCk v.target (if v.kind == 2 then some v.key else none)

/-- Policer and PN state that moves or is lost with an Outbound pipe's power: HI + 1, LO = 0, MIRROR ahead (R617). -/
def skipAhead (x : CoachDyn) : CoachDyn :=
  { x with mirror := if x.mirror ≤ x.hi + 1 then x.hi + 5 else x.mirror, hi := x.hi + 1, lo := 0 }

end Sys2Proof.Machine
end

