-- ==== Sys2Proof/Machine/Sha.lean ====
section
/-! DEFINITION. SHA-384 (FIPS 180-4) and HMAC-SHA-384, for R249, R264, R265, R275 and R602. -/

namespace Sys2Proof.Machine

/-- The largest `r` with `r ^ k ≤ n` that `bits` bits hold, tried from the top bit down onto `r`. -/
def rootBits (k n : Nat) : Nat → Nat → Nat
  | 0, r => r
  | bits + 1, r => rootBits k n bits (if (r + 2 ^ bits) ^ k ≤ n then r + 2 ^ bits else r)

/-- The first 64 bits after the point of the `k`-th root of `p`. -/
def rootFraction (k p : Nat) : BitVec 64 := BitVec.ofNat 64 (rootBits k (p * 2 ^ (64 * k)) 69 0)

/-- The primes up to 409: the first 80. -/
def shaPrimes : List Nat :=
  (List.range 410).filter fun p => 1 < p && (List.range p).all fun q => q < 2 || p % q != 0

/-- The round constants: the cube roots of the first 80 primes. -/
def shaK : List (BitVec 64) := shaPrimes.map (rootFraction 3)

/-- The initial hash value of SHA-384: the square roots of the 9th to the 16th prime. -/
def shaInit : List (BitVec 64) := ((shaPrimes.drop 8).take 8).map (rootFraction 2)

/-- Cut a byte string into blocks of 128 bytes. -/
def pieces128 : Nat → Bytes → List Bytes
  | 0, _ => []
  | n + 1, m => if m.isEmpty then [] else m.take 128 :: pieces128 n (m.drop 128)

/-- Message with its padding: 0x80, zeros, and the length in bits in 16 bytes. -/
def shaPad (m : Bytes) : Bytes :=
  m ++ [0x80#8] ++ List.replicate ((239 - m.length % 128) % 128) 0#8 ++ bytesOfNat 16 (8 * m.length)

/-- The exclusive or of a word turned right by each of three counts. -/
def turned3 (x : BitVec 64) (i j k : Nat) : BitVec 64 := x.rotateRight i ^^^ x.rotateRight j ^^^ x.rotateRight k

/-- The exclusive or of a word turned right by two counts and shifted right by a third. -/
def turned2 (x : BitVec 64) (i j k : Nat) : BitVec 64 := x.rotateRight i ^^^ x.rotateRight j ^^^ x >>> k

/-- The 80 words of a block's schedule, newest first. -/
def shaSchedule (b : Bytes) : List (BitVec 64) :=
  let first := (List.range 16).map fun i => BitVec.ofNat 64 (natOfBytes ((b.drop (8 * i)).take 8))
  (List.range 64).foldl (fun ws _ =>
    let back (i : Nat) := ws.getD (i - 1) 0#64
    (turned2 (back 2) 19 61 6 + back 7 + turned2 (back 15) 1 8 7 + back 16) :: ws) first.reverse

/-- The eight working words. -/
structure ShaWork where
  a : BitVec 64
  b : BitVec 64
  c : BitVec 64
  d : BitVec 64
  e : BitVec 64
  f : BitVec 64
  g : BitVec 64
  h : BitVec 64
  deriving DecidableEq, Repr

/-- The working words as a list, and back. -/
def ShaWork.words (v : ShaWork) : List (BitVec 64) := [v.a, v.b, v.c, v.d, v.e, v.f, v.g, v.h]

/-- The working words of a hash value. -/
def ShaWork.ofWords (w : List (BitVec 64)) : ShaWork :=
  let at_ (i : Nat) := w.getD i 0#64
  ⟨at_ 0, at_ 1, at_ 2, at_ 3, at_ 4, at_ 5, at_ 6, at_ 7⟩

/-- One round, with the sum of its constant and its schedule word. -/
def shaRound (v : ShaWork) (kw : BitVec 64) : ShaWork :=
  let choose := v.g ^^^ (v.e &&& (v.f ^^^ v.g))
  let most := (v.a &&& v.b) ||| (v.c &&& (v.a ||| v.b))
  let into := v.h + turned3 v.e 14 18 41 + choose + kw
  { v with a := into + turned3 v.a 28 34 39 + most, b := v.a, c := v.b, d := v.c, e := v.d + into, f := v.e, g := v.f, h := v.g }

/-- One block into the hash value. -/
def shaBlock (h : List (BitVec 64)) (b : Bytes) : List (BitVec 64) :=
  let rounds := List.zipWith (· + ·) shaK (shaSchedule b).reverse
  List.zipWith (· + ·) h (rounds.foldl shaRound (ShaWork.ofWords h)).words

/-- SHA-384 of a byte string. -/
def sha384 (m : Bytes) : Bytes :=
  let p := shaPad m
  (((pieces128 p.length p).foldl shaBlock shaInit).take 6).flatMap fun x => bytesOfNat 8 x.toNat

/-- SHA-384 as a number. -/
def sha384N (m : Bytes) : BitVec 384 := BitVec.ofNat 384 (natOfBytes (sha384 m))

/-- HMAC-SHA-384 under a key of at most 128 bytes. -/
def hmac384 (key m : Bytes) : Bytes :=
  let k := (key ++ List.replicate 128 0#8).take 128
  sha384 (k.map (· ^^^ 0x5C#8) ++ sha384 (k.map (· ^^^ 0x36#8) ++ m))

end Sys2Proof.Machine
end

