-- ==== Sys2Proof/Machine/Ec.lean ====
section
/-! DEFINITION. The curve P-384: ECDH (R264, R275), ECDSA with the nonce of RFC 6979 (R249, R265, R602). -/

namespace Sys2Proof.Machine

/-- The field prime of P-384. -/
def ecP : Nat := 2 ^ 384 - 2 ^ 128 - 2 ^ 96 + 2 ^ 32 - 1

/-- The group order. -/
def ecN : Nat := 0xffffffffffffffffffffffffffffffffffffffffffffffffc7634d81f4372ddf581a0db248b0a77aecec196accc52973

/-- The curve constant b; the constant a is -3. -/
def ecB : Nat := 0xb3312fa7e23ee7e4988e056be3f82d19181d9c6efe8141120314088f5013875ac656398d8a2ed19d2a85c8edd3ec2aef

/-- The base point. -/
def ecG : Nat × Nat := (0xaa87ca22be8b05378eb1c71ef320ad746e1d3b628ba79b9859f741e082542a385502f25dbf55296c3a545e3872760ab7,
  0x3617de4a96262c6f5d9e98bf9292dc29f8f41dbd289a147ce9da3113b5f0b8c00a60b1ce1d7e819d7a431d7c90ea0e5f)

/-- Power modulo `m`, over `k` bits of the exponent. -/
def powMod (m x e : Nat) : Nat → Nat
  | 0 => 1 % m
  | k + 1 => let r := powMod m (x * x % m) (e / 2) k; if e % 2 == 1 then x * r % m else r

/-- Inverse modulo an odd prime of 384 bits. -/
def invMod (m x : Nat) : Nat := powMod m (x % m) (m - 2) 384

/-- Sum of two points; none is the point at infinity. -/
def ecAdd (p q : Option (Nat × Nat)) : Option (Nat × Nat) :=
  match p, q with
  | none, q => q
  | p, none => p
  | some (x1, y1), some (x2, y2) =>
    if x1 == x2 && (y1 + y2) % ecP == 0 then none
    else
      let l := if x1 == x2 then (3 * x1 * x1 + ecP - 3) * invMod ecP (2 * y1) % ecP
               else (y2 + ecP - y1) * invMod ecP (x2 + ecP - x1) % ecP
      let x3 := (l * l + 2 * ecP - x1 - x2) % ecP
      some (x3, (l * (x1 + ecP - x3) + ecP - y1) % ecP)

/-- Multiple of a point, over `k` bits of the factor. -/
def ecMulBits (p : Option (Nat × Nat)) (e : Nat) : Nat → Option (Nat × Nat)
  | 0 => none
  | k + 1 => let r := ecMulBits (ecAdd p p) (e / 2) k; if e % 2 == 1 then ecAdd p r else r

/-- Multiple of a point. -/
def ecMul (e : Nat) (p : Option (Nat × Nat)) : Option (Nat × Nat) := ecMulBits p e 384

/-- A public key that R264 takes: on the curve, with coordinates below the prime. -/
def ecValid (x y : Nat) : Bool :=
  x < ecP && y < ecP && (y * y + 3 * x) % ecP == (x * x * x + ecB) % ecP

/-- ECDSA verification of r and s over a hash. -/
def ecdsaVerify (pub : Nat × Nat) (h r s : Nat) : Bool :=
  ecValid pub.1 pub.2 && 0 < r && r < ecN && 0 < s && s < ecN &&
  (let w := invMod ecN s
   match ecAdd (ecMul (h * w % ecN) (some ecG)) (ecMul (r * w % ecN) (some pub)) with
   | none => false
   | some (x, _) => x % ecN == r)

/-- One signature attempt with nonce k. -/
def ecdsaTry (d h k : Nat) : Option (Nat × Nat) :=
  if k == 0 || ecN ≤ k then none
  else match ecMul k (some ecG) with
    | none => none
    | some (x, _) =>
      let r := x % ecN
      let s := invMod ecN k * ((h + r * d) % ecN) % ecN
      if r == 0 || s == 0 then none else some (r, s)

/-- The nonce loop of RFC 6979, section 3.2 steps h.1-h.3. -/
def rfc6979Loop (d h : Nat) : Nat → Bytes → Bytes → Nat × Nat
  | 0, _, _ => (0, 0)
  | n + 1, key, v =>
    let v1 := hmac384 key v
    match ecdsaTry d h (natOfBytes v1) with
    | some rs => rs
    | none => let k2 := hmac384 key (v1 ++ [0#8]); rfc6979Loop d h n k2 (hmac384 k2 v1)

/-- Deterministic ECDSA over a message, with SHA-384 (R265). -/
def ecdsaSign (d : Nat) (m : Bytes) : Nat × Nat :=
  let h := natOfBytes (sha384 m)
  let x := bytesOfNat 48 d ++ bytesOfNat 48 (h % ecN)
  let v0 := List.replicate 48 1#8
  let k1 := hmac384 (List.replicate 48 0#8) (v0 ++ [0#8] ++ x)
  let v1 := hmac384 k1 v0
  let k2 := hmac384 k1 (v1 ++ [1#8] ++ x)
  rfc6979Loop d h 128 k2 (hmac384 k2 v1)

end Sys2Proof.Machine
end

