-- ==== Sys2Proof/Machine/Vault.lean ====
section
/-! DEFINITION. The vault: root regeneration (R241-R246), masks (R253-R256), the key engine and key windows (R257-R273),
the public-key unit (R261-R265), life cycle (R244-R251), CK commits (R280-R282) and the pair link key (R275). -/

namespace Sys2Proof.Machine

/-- Words `i` to `i + n - 1` of a register array as bytes, byte 0 in bits [31:24] of the first. -/
def Dev.wordsBytes (d : Dev) (r : Reg) (i n : Nat) : Bytes := (List.range n).flatMap fun j => bytesOfNat 4 (d.rd r [i + j])

/-- Clear `n` words of a register array. -/
def Dev.clearWords (d : Dev) (r : Reg) (n : Nat) : Dev := forEach n d fun d i => d.wr r [i] 0

/-- Word i of a byte string. -/
def wordOf (b : Bytes) (i : Nat) : Nat := natOfBytes ((b.drop (4 * i) ++ List.replicate 4 0#8).take 4)

/-! Roots. -/

/-- Six zero bytes of context. -/
def zeroCtx : Bytes := List.replicate 6 0#8

/-- The active root of the life-cycle state (R245, R246). -/
def activeRoot (p : BitVec 256) (lc : LifeCycle) (epoch : Nat) (otp : Otp) : BitVec 256 :=
  match lc with
  | .vendor => kdfKey p "ROOTVEND" zeroCtx
  | .owner =>
    let h := match tget otp.ownerHash epoch with | some (h, _) => h | none => 0
    kdfKey p "ROOTOWNR" ([BitVec.ofNat 8 epoch] ++ (bytesOfNat 48 h.toNat).take 5)
  | .ret => kdfKey p "ROOTRETN" zeroCtx

/-- The identity private key (R261). -/
def identityKey (p : BitVec 256) : BitVec 384 :=
  let t := fun i => (kdfBlock p "IDENTITY" zeroCtx i).toNat
  BitVec.ofNat 384 ((((t 1 * 2 ^ 128 + t 2) * 2 ^ 128 + t 3) * 2 ^ 128 + t 4) % (ecN - 1) + 1)

/-- Life-cycle state and epoch from the fuses (R244). -/
def fuseState (o : Otp) : LifeCycle × Nat :=
  (if o.lcReturn then .ret else if o.lcOwner then .owner else .vendor, o.epochs)

/-- P accepted: roots, slot keys and identity key; the PUF SRAM cells become zero (R243, R246). -/
def Dev.acceptRoot (d : Dev) (p : BitVec 256) : Dev :=
  let root := activeRoot p d.vault.lc d.vault.epoch d.otp
  { d with vault := { d.vault with
      rootOk := true, pufCells := .zero, puf := p, root := root, ckWrap := kdfKey root "CKWRAP00" zeroCtx,
      slotMac := kdfKey root "CKSLTMAC" zeroCtx, ident := identityKey p } }

/-- PUF_HELPER and PUF_CHECK are valid, the errors can be corrected, and PUF_CHECK fits P (R240, R241). -/
def Dev.pufFits (d : Dev) (errs : Nat) (p : BitVec 256) : Bool :=
  otpFits d.board.otp .pufHelper && otpFits d.board.otp .pufCheck && errs ≤ 3072 &&
  (aesEnc p 0#128).extractLsb' 64 64 == d.board.otp.pufCheck

/-- One regeneration attempt: the cells' power-up state has `errs` bit errors, and PUF_HELPER makes `p` of it; after a failed
one the SRAM loses its power (R241, R242). It needs the engine's known-answer test first (R260). -/
def Dev.pufAttempt (d : Dev) (errs : Nat) (p : BitVec 256) : Dev :=
  if d.vault.rootOk || d.vault.pufFail || d.boot.stage == 15 || d.boot.vaultEnd || d.boot.stage < 2 || !d.vault.engOk then d else
  let tries := d.vault.pufTries + 1
  let d := { d with vault := { d.vault with pufTries := tries, pufCells := .off } }
  if d.pufFits errs p then
    let d := { d with vault := { d.vault with pufErrs := errs } }.acceptRoot p
    if 2304 < errs then
      ({ d with vault := { d.vault with pufMargin := true } }.irq .VLT_INT_STAT 6).raise 9
    else d
  else if tries == 3 then { d with vault := { d.vault with pufFail := true } }.raise 8
  else d

/-! Masks. -/

/-- The generation bit kept with the slot at address a: which mask it is stored under (R254, R255). -/
def Dev.slotGen (d : Dev) (a : Nat) : Bool :=
  if d.vault.sweep && !(a < d.vault.sweepPos || d.coach.remasked.contains a) then !d.vault.gen else d.vault.gen

/-- The key slot at a slot address. -/
def Dev.slotAt (d : Dev) (a : Nat) : Option Slot :=
  let x := d.co (a / 2)
  if a % 2 == 0 then x.slotA else x.slotB

/-- The 64 bytes of a slot (R207); an empty one is zero (R253). -/
def slotBits : Option Slot → BitVec 512
  | none => 0
  | some s =>
    let b := s.key ++ s.salt ++ BitVec.ofNat 32 s.stage ++ BitVec.ofNat 64 s.nextPn
    b ++ Config.slotCheck b

/-- The storage address of slot address a under the permutation of draw k: each of the 2^17 addresses in turn changes places
with one of the draw's choice (R253). -/
def storageAddr (k a : Nat) : Nat :=
  (List.range 131072).foldl (fun p i =>
    let j := Config.permChoice k i % 131072
    if p == i then j else if p == j then i else p) a

/-- What the key store holds of the slot at address a: its storage address and its content under its mask (R253, R254). -/
def Dev.stored (d : Dev) (a : Nat) : Nat × BitVec 512 :=
  (storageAddr d.vault.perm a, slotBits (d.slotAt a) ^^^ if d.slotGen a then d.vault.maskB else d.vault.maskA)

/-- Zero is written to every slot, and permutation and masks are drawn (R253, R254). -/
def Dev.initStore (d : Dev) : Dev :=
  let (d, a) := d.draw
  let (d, b) := d.draw
  let k := d.fresh
  let (d, _) := d.draw
  { d with
    coach := { d.coach with dyn := d.coach.dyn.map fun e => (e.1, { e.2 with slotA := none, slotB := none }), remasked := [] },
    vault := { d.vault with maskA := a, maskB := b, perm := k, gen := false, sweep := false, sweepPos := 0 } }

/-- A boundary at which a new mask falls due (R254, R260). -/
def sweepDue (n : Nat) : Bool := n != 0 && n % 2 ^ 20 == 0

/-- Draw the mask not in use and start a sweep (R254, R256). -/
def Dev.maskRedraw (d : Dev) (n : Nat) : Dev :=
  if sweepDue n && d.vault.trngOk && !d.vault.sweep then
    let (d, m) := d.draw
    let g := !d.vault.gen
    { d with
      coach := { d.coach with remasked := [] },
      vault := { d.vault with
        maskA := if g then d.vault.maskA else m, maskB := if g then m else d.vault.maskB, gen := g, sweep := true,
        sweepPos := 0 } }
  else d

/-- The sweep has rewritten every slot: the old mask becomes zero (R254). -/
def Dev.maskSweepEnd (d : Dev) : Dev :=
  if d.vault.sweep && 131072 ≤ d.vault.sweepPos then
    { d with vault := { d.vault with sweep := false, sweepPos := 0,
                                     maskA := if d.vault.gen then 0 else d.vault.maskA,
                                     maskB := if d.vault.gen then d.vault.maskB else 0 } }
  else d

/-- One slot of a running sweep is rewritten in the beat that ends: it is then under the new mask, as one that was loaded or
cleared already is (R254, R255). -/
def Dev.sweepStep (d : Dev) : Dev :=
  if d.vault.sweep then
    { d with
      coach := { d.coach with remasked := d.coach.remasked.filter fun a => d.vault.sweepPos < a },
      vault := { d.vault with sweepPos := min 131072 (d.vault.sweepPos + 1) } }.maskSweepEnd
  else d

/-- A health test of the random number generator fails (R256). -/
def Dev.trngFail (d : Dev) : Dev :=
  if d.preRun && !d.boot.vaultEnd then d.raise 7
  else ({ d with vault := { d.vault with trngOk := false, trngRun := 0 } }.irq .VLT_INT_STAT 7).setCond 10 true

/-- 2^20 beats of passing tests after the beat of the failure end it (R256). -/
def Dev.trngRecover (d : Dev) : Dev :=
  if !d.vault.trngOk && 2 ^ 20 < d.vault.trngRun then
    { d with vault := { d.vault with trngOk := true, trngRun := 0 } }.setCond 10 false
  else d

/-- One more beat has ended since the failure. -/
def Dev.trngBeat (d : Dev) : Dev :=
  if d.vault.trngOk || !d.boot.vaultEnd then d
  else { d with vault := { d.vault with trngRun := d.vault.trngRun + 1 } }.trngRecover

/-! The key engine. -/

/-- A failed known-answer test (R260). -/
def Dev.engineFail (d : Dev) : Dev := { d with vault := { d.vault with engOk := false } }.raise 11

/-- Blocks of a job; `n` keys are in the snapshot of a CK commit (R259). -/
def jobBlocks (n : Nat) : JobWork → Nat
  | .knownAnswer => 2
  | .checkValue _ => 1
  | .window j => if j.kind == 1 then 42 else 30
  | .ckCommit => 30 * n + 1 + (64 + 48 * n + 15) / 16

/-- A derivation has the block starts of the beat under way (R211, R258). -/
def Dev.engineHeld (d : Dev) : Bool := d.clk.run && (d.vault.drvBeat || !d.vault.drv.isEmpty)

/-- CCLK of the next block start: offset 0, 256, 512 or 768 of a beat; before beat 0, any CCLK (R257). -/
def Dev.blockStart (d : Dev) : Option Nat :=
  if !d.clk.run then some d.clk.cclk
  else if d.clk.cclk ≤ 768 then some ((d.clk.cclk + 255) / 256 * 256) else none

/-- CCLK offset at which the last block of a started job ends, when that is in the beat under way or before it (R257, R259). -/
def Dev.jobEnds (d : Dev) (j : EngJob) : Option Nat :=
  let e := j.from_ + 256 * j.left
  if !j.started then none
  else if j.left == 0 then some j.from_
  else if d.clk.run then (if !d.engineHeld && e ≤ 1024 then some e else none)
  else if e ≤ d.clk.ticks then some 0 else none

/-- A started job has run its last block. -/
def Dev.jobOver (d : Dev) (j : EngJob) : Bool := match d.jobEnds j with | some e => e ≤ d.clk.cclk | none => false

/-- The jobs at the end of a beat: the one that runs has had every block start from its first in the beat on (R257, R258). -/
def Dev.jobsLater (d : Dev) : List EngJob :=
  d.vault.jobs.map fun j =>
    if !j.started then j
    else if d.clk.run then { j with left := if d.engineHeld then j.left else j.left - (1024 - j.from_) / 256, from_ := 0 }
    else { j with left := j.left - (d.clk.ticks - j.from_) / 256, from_ := 0 }

/-- The jobs at the boundary of beat 0: a block under way goes on to its end, the ones after it have the block starts of the
beat (R257). -/
def Dev.jobsAtBeat0 (d : Dev) : List EngJob :=
  d.vault.jobs.map fun j =>
    let t := d.clk.ticks - j.from_
    let n := j.left - (t + 255) / 256
    if !j.started then j
    else if j.left ≤ t / 256 then { j with left := 0, from_ := 0 }
    else { j with left := n, from_ := if t % 256 == 0 then 0 else if n == 0 then 256 - t % 256 else 256 }

/-- The job at the head of the queue leaves it. -/
def Dev.popJob (d : Dev) : Dev := { d with vault := { d.vault with jobs := d.vault.jobs.drop 1 } }

/-- The known-answer test ends: at start, or as the engine's job (R260). -/
def Dev.knownAnswer (d : Dev) (pass : Bool) : Dev :=
  if d.preRun then
    let d := d.pmcSpread 2 1 2
    if pass then { d with vault := { d.vault with engOk := true } } else d.engineFail
  else
  match d.vault.jobs with
  | [] => d
  | j :: _ =>
    if j.work == JobWork.knownAnswer && d.jobOver j then
      let d := d.popJob
      if pass then d else d.engineFail
    else d

/-- Rank of jobs that join the queue in one CCLK, and their order within it (R258; log entry 70). -/
def jobRank : JobWork → Nat × Nat
  | .knownAnswer => (0, 0)
  | .checkValue k => (1, k)
  | .ckCommit => (2, 0)
  | .window w => (3, w.window)

/-- Of two jobs that joined in one CCLK, which comes first. -/
def jobBefore (a b : JobWork) : Bool :=
  (jobRank a).1 < (jobRank b).1 || ((jobRank a).1 == (jobRank b).1 && (jobRank a).2 < (jobRank b).2)

/-- Place a job behind those that joined before it. -/
def placeJob (j : EngJob) : List EngJob → List EngJob
  | [] => [j]
  | q :: l => if q.joined == j.joined && !q.started && jobBefore j.work q.work then j :: q :: l else q :: placeJob j l

/-- A job joins the queue; a failed engine takes none (R258, R260). -/
def Dev.addJob (d : Dev) (w : JobWork) : Dev :=
  if d.vault.engOk then
    { d with vault := { d.vault with jobs := placeJob ⟨w, false, 0, d.clk.ticks, 0, 0⟩ d.vault.jobs } }
  else d

/-- VLT_KW_STAT of a window (R272). -/
def Dev.kwStat (d : Dev) (w : Nat) : Nat := tgetD d.vault.kwStat w 0

/-- A key-window job ends with a result (R272, R576). -/
def Dev.kwEnd (d : Dev) (w res : Nat) : Dev :=
  ({ d with vault := { d.vault with kwStat := tputN d.vault.kwStat w res } }.irq .VLT_INT_STAT 0).pmcEvent 2 3

/-- The device refuses deliveries now (R272 NOT_READY). -/
def Dev.kwNotReady (d : Dev) : Bool := d.preRun || !d.leads || d.vault.resetReq

/-- Word i of a key window. -/
def Dev.kwWord (d : Dev) (w i : Nat) : Nat := (tgetD d.vault.win (w * 64 + i) 0#32).toNat

/-- A non-zero bit that R269 requires to be 0, or a KIND outside 1-3. -/
def Dev.kwBad (d : Dev) (w : Nat) : Bool :=
  let h := d.kwWord w 0
  let k := bits h 31 28
  let used := if k == 1 then 18 else if k == 2 then 14 else 2
  k == 0 || 3 < k || bits h 23 0 != 0 || (if k == 1 then bits (d.kwWord w 1) 31 16 else bits (d.kwWord w 1) 31 12) != 0 ||
  ((List.range 63).drop used).any fun i => d.kwWord w i != 0

/-- Put a delivery into the open batch, or end with BATCH_FULL (R272, R273). -/
def Dev.kwPlace (d : Dev) (w : Nat) (v : Delivery) : Dev :=
  if d.hasRoom (.dlv v) then ((d.stage (.dlv v)).forwardDelivery v).kwEnd w 2 else d.kwEnd w 9

/-- Zero a window's words. -/
def Dev.kwClear (d : Dev) (w : Nat) : Dev :=
  { d with vault := { d.vault with win := d.vault.win.filter fun c => c.1 / 64 != w } }

/-- A write of KW_GO: the window is copied and zeroed, and its job is queued or ends at once (R270-R272); a failed engine
refuses it (R260; log entry 71). -/
def Dev.kwGo (d : Dev) (w : Nat) : Dev :=
  if d.kwStat w == 1 then d.irq .VLT_INT_STAT 8 else
  let h := d.kwWord w 0
  let k := bits h 31 28
  let bad := d.kwBad w
  let j : KwJob :=
    { window := w, kind := k, kek := bits h 27 24, target := d.kwWord w 1,
      blob := ((List.range (if k == 1 then 16 else 12)).flatMap fun i => bytesOfNat 4 (d.kwWord w (2 + i))) }
  let d := d.kwClear w
  if d.kwNotReady then d.kwEnd w 8
  else if bad then d.kwEnd w 3
  else if k == 3 then d.kwPlace w ⟨3, bits j.target 11 0, 0, 0, 0⟩
  else if !d.vault.engOk then d.kwEnd w 8
  else { d with vault := { d.vault with kwStat := tputN d.vault.kwStat w 1 } }.addJob (.window j)

/-- A write to BAR2 (R269, R270, R643): four byte enables, not to a busy window. -/
def Dev.kwWrite (d : Dev) (off : Nat) (v : Word) : Dev :=
  let w := off / 256
  let i := off % 256 / 4
  if d.kwStat w == 1 then d.irq .VLT_INT_STAT 8
  else if i == 63 then d.kwGo w
  else { d with vault := { d.vault with win := tput d.vault.win 0#32 (w * 64 + i) v } }

/-- VLT_KEK_LIMIT.LIMIT. -/
def Dev.kekLimit (d : Dev) : Nat := d.fld .VLT_KEK_LIMIT [] 16 0

/-- Take one use from a KEK slot (R267). -/
def Dev.useKek (d : Dev) (k : Nat) (e : Kek) : Dev :=
  let u := e.uses - 1
  let low := 16 * u ≤ d.kekLimit && !e.low
  let d := { d with vault := { d.vault with kek := tset d.vault.kek k { e with uses := u, low := e.low || low } } }
  if low then d.irq .VLT_INT_STAT 1 else d

/-- A job ends before its first block, with NOT_READY where that holds when it ends (R267, R272). -/
def Dev.kwRefuse (d : Dev) (w res : Nat) : Dev := d.kwEnd w (if d.kwNotReady then 8 else res)

/-- A job takes its first block start. -/
def Dev.startJob (d : Dev) (j : EngJob) (kek : BitVec 256) (rest : List EngJob) : Dev :=
  { d with vault := { d.vault with
    jobs := { j with started := true, kek := kek, left := jobBlocks d.vault.ckSnap.length j.work,
                     from_ := if d.clk.run then d.clk.cclk else d.clk.ticks } :: rest } }

/-- The block start goes to the oldest job; jobs that meet an empty or spent slot end there (R258, R267). -/
def Dev.startJobs : List EngJob → Dev → Dev
  | [], d => { d with vault := { d.vault with jobs := [] } }
  | j :: rest, d =>
    if j.started then { d with vault := { d.vault with jobs := j :: rest } } else
    match j.work with
    | .window w =>
      match tget d.vault.kek w.kek with
      | none => Dev.startJobs rest (d.kwRefuse w.window 4)
      | some e =>
        if e.uses == 0 then Dev.startJobs rest (d.kwRefuse w.window 5)
        else (d.useKek w.kek e).startJob j e.key rest
    | _ => d.startJob j 0 rest

/-- A job has the engine: the one at the head of the queue, once it has taken its first block start. -/
def Dev.headRuns (d : Dev) : Bool := match d.vault.jobs with | j :: _ => j.started | [] => false

/-- A block start that no derivation claims (R257, R258). -/
def Dev.keyJobStart (d : Dev) : Dev :=
  if d.vault.engOk && !d.engineHeld && d.blockStart == some d.clk.cclk then
    let e := Dev.startJobs d.vault.jobs d
    if Dev.headRuns e && !d.headRuns then e.pmcEvent 2 1 else e
  else d

/-- The unwrap of a window job ends: NOT_READY, UNWRAP, TARGET, BATCH_FULL or OK (R271, R272). -/
def Dev.unwrapEnd (d : Dev) (kek : BitVec 256) (j : KwJob) : Dev :=
  if d.kwNotReady then d.kwEnd j.window 8 else
  let u := unwrapKw kek j.blob
  let p := u.2
  if u.1 != 0xA6A6A6A6A6A6A6A6#64 then d.kwEnd j.window 6 else
  let id := natOfBytes (p.take 2)
  let stage := natOfBytes ((p.drop 4).take 4)
  let fits := natOfBytes ((p.drop 2).take 2) == j.kind && id == j.target % 2 ^ 16 &&
    (if j.kind == 1 then natOfBytes (p.drop 52) == 0 && id != 0 && stage != 0 else stage == 0)
  if !fits then d.kwEnd j.window 7 else
  let key := BitVec.ofNat 256 (natOfBytes ((p.drop 8).take 32))
  d.kwPlace j.window ⟨j.kind, id, if j.kind == 1 then stage else 0, key,
    if j.kind == 1 then BitVec.ofNat 96 (natOfBytes ((p.drop 40).take 12)) else 0⟩

/-- A public-key operation or life-cycle command ends: its input words are cleared (R291). -/
def Dev.pkEnd (d : Dev) (res : Nat) : Dev :=
  ({ d with vault := { d.vault with pk := none, pkRes := res } }.clearWords .VLT_PK_IN 24).irq .VLT_INT_STAT 5

/-- The check value job at the head of the queue shows the key check value of a KEK (R264). -/
def Dev.checkValue (d : Dev) (k : Nat) : Dev :=
  let d := d.popJob
  match tget d.vault.kek k with
  | none => d
  | some e =>
    let d := { d with vault := { d.vault with kcv := (aesEnc e.key 0#128).extractLsb' 64 64 } }
    match d.vault.pk with
    | some (3, k') => if k' == k then d.pkEnd 1 else d
    | _ => d

/-- The job at the head of the queue ends, when it has run its last block (R258, R259, R272); the known-answer test has a command
of its own. -/
def Dev.keyJobEnd (d : Dev) : Dev :=
  match d.vault.jobs with
  | [] => d
  | j :: _ =>
    if !d.jobOver j then d else
    let e := d.popJob
    match j.work with
    | .window w => e.unwrapEnd j.kek w
    | .knownAnswer => d
    | .checkValue k => d.checkValue k
    | .ckCommit => e

/-! The public-key unit. -/

/-- A queued or running key-window job uses KEK slot k (R266). -/
def Dev.kekBusy (d : Dev) (k : Nat) : Bool :=
  d.vault.jobs.any fun j => match j.work with | .window w => w.kek == k | _ => false

/-- A write of VLT_PK_CTL with GO = 1 (R263, R266, R294, R295). -/
def Dev.pkGo (d : Dev) (op k : Nat) : Dev :=
  if d.vault.pk.isSome then d.irq .VLT_INT_STAT 8
  else if d.vault.resetReq || !d.vault.engOk then d.pkEnd 4
  else if op != 1 && op != 2 then d.pkEnd 5
  else if op == 1 && d.kekBusy k then d.pkEnd 3
  else { d with vault := { d.vault with pk := some (op, k) } }

/-- SERIAL as its 8 bytes. -/
def Dev.serialBytes (d : Dev) : Bytes := bytesOfNat 8 d.otp.serial.toNat

/-- The 32-byte key of a shared secret: SHA-384 over 1, Z, a label and more (R264, R275). -/
def agreedKey (z : Nat) (label : String) (more : Bytes) : BitVec 256 :=
  BitVec.ofNat 256 (natOfBytes ((sha384 (bytesOfNat 4 1 ++ bytesOfNat 48 z ++ ascii label ++ more)).take 32))

/-- The 122-byte message of an attestation (R265). -/
def Dev.attestMsg (d : Dev) (challenge : Bytes) : Bytes :=
  ascii "FIONEATT" ++ d.serialBytes ++ [BitVec.ofNat 8 (lcCode d.vault.lc), BitVec.ofNat 8 d.vault.epoch] ++
  bytesOfNat 8 d.clk.count ++ bytesOfNat 48 d.boot.digest.toNat ++ challenge

/-- Attestation signature r and s (R265). -/
def Dev.attestSign (d : Dev) (challenge : Bytes) : Bytes :=
  let s := ecdsaSign d.vault.ident.toNat (d.attestMsg challenge)
  bytesOfNat 48 s.1 ++ bytesOfNat 48 s.2

/-- The operation of the public-key unit completes (R263-R265); after a life-cycle transition it is refused (R251). -/
def Dev.pkDone (d : Dev) : Dev :=
  if d.vault.resetReq && d.vault.pk.isSome then d.pkEnd 4 else
  match d.vault.pk with
  | some (1, k) =>
    let x := natOfBytes (d.wordsBytes .VLT_PK_IN 0 12)
    let y := natOfBytes (d.wordsBytes .VLT_PK_IN 12 12)
    if !ecValid x y then d.pkEnd 2 else
    match ecMul d.vault.ident.toNat (some (x, y)) with
    | none => d.pkEnd 2
    | some (z, _) =>
      let key := agreedKey z "FIONEKEK" (d.serialBytes ++ [BitVec.ofNat 8 k])
      { d with vault := { d.vault with kek := tset d.vault.kek k ⟨key, d.kekLimit, false⟩, pk := some (3, k) } }.addJob (.checkValue k)
  | some (2, _) =>
    let sig := d.attestSign (d.wordsBytes .VLT_PK_IN 0 12)
    { d with vault := { d.vault with pkOut := sig } }.pkEnd 1
  | _ => d

/-! Life cycle. -/

/-- Result codes of VLT_LC_STAT (R295). -/
def lcDone : Nat := 1
def lcBadSig : Nat := 2
def lcSerial : Nat := 3
def lcNotAllowed : Nat := 4
def lcEpochExh : Nat := 5
def lcOtpConflict : Nat := 6
def lcOtpFail : Nat := 7

/-- The hash that a command's signer must have; none when the state does not allow the OP (R249). -/
def lcSigner (lc : LifeCycle) (op epoch : Nat) (o : Otp) (newHash : BitVec 384) : Option (BitVec 384) :=
  match lc with
  | .vendor => if op == 1 then some newHash else if op == 3 then some o.vendorHash else none
  | .owner =>
    if op == 2 || op == 3 then some (match tget o.ownerHash epoch with | some (h, _) => h | none => 0) else none
  | .ret => none

/-- What a command record and its OTP check come to: a refusal, or the OTP with the transition made (R248-R250). -/
def lcCheck (lc : LifeCycle) (epoch : Nat) (o : Otp) (rec : Bytes) : Sum Nat Otp :=
  let op := natOfBytes ((rec.drop 4).take 1)
  let ep := natOfBytes ((rec.drop 5).take 1)
  let newHash := BitVec.ofNat 384 (natOfBytes ((rec.drop 16).take 48))
  let signer := (rec.drop 64).take 96
  let want := if op == 1 then 0 else if op == 2 then epoch + 1 else epoch
  if natOfBytes (rec.take 4) != 0x464A584C then .inl lcNotAllowed else
  match lcSigner lc op epoch (otpHeld o) newHash with
  | none => .inl lcNotAllowed
  | some h =>
    if natOfBytes ((rec.drop 8).take 8) != (otpHeld o).serial.toNat then .inl lcSerial
    else if op == 2 && epoch == 16 then .inl lcEpochExh
    else if ep != want then .inl lcNotAllowed
    else if sha384N signer != h then .inl lcBadSig
    else if !ecdsaVerify (natOfBytes (signer.take 48), natOfBytes (signer.drop 48)) (natOfBytes (sha384 (rec.take 160)))
        (natOfBytes ((rec.drop 160).take 48)) (natOfBytes ((rec.drop 208).take 48)) then .inl lcBadSig
    else
      let held := tget o.ownerHash ep
      let conflict := match held with
        | none => false
        | some (v, ok) => !ok || (op != 3 && v != newHash)
      if conflict then .inl lcOtpConflict
      else if op == 3 then .inr { o with lcReturn := true }
      else
        let o := { o with ownerHash := tset o.ownerHash ep (newHash, true) }
        .inr (if op == 1 then { o with lcOwner := true } else { o with epochs := epoch + 1 })

/-- Put the OTP. -/
def Dev.setOtp (d : Dev) (o : Otp) : Dev := { d with board := { d.board with otp := o } }

/-- A transition completes: every key slot, the probes' and one derived in this beat among them, is cleared, further jobs are
refused, a reset is asked for (R251). Deliveries that are already in a batch stay in it (log entry 87). -/
def Dev.lcComplete (d : Dev) (o : Otp) : Dev :=
  let dyn := d.coach.dyn.map fun cx => (cx.1, { cx.2 with slotA := none, slotB := none, probe := false, jump := none })
  let moved := if d.vault.sweep then (List.range 131072).drop d.vault.sweepPos else d.coach.remasked
  let d := { d.setOtp o with coach := ⟨dyn, [], moved⟩,
                             vault := { d.vault with kek := [], ck := [], drvDone := none, resetReq := true } }
  d.irq .VLT_INT_STAT 9

/-- The OTP when not all writes of an accepted command are made: `o` before them, `o'` after them, `ep` the epoch. An owner hash
that is cut off is a partial value, a free one, that fails its check; one already held is not written again (R250). -/
def Dev.lcPart (d : Dev) (o o' : Otp) (ep : Nat) (e : OtpEnd) : Dev :=
  let inHash := (e == OtpEnd.hashFails || e == OtpEnd.hashCut) && o'.ownerHash != o.ownerHash
  let x := d.draw
  if inHash then x.1.setOtp { o with ownerHash := tset o.ownerHash ep (x.2.truncate 384, false) }
  else d.setOtp { o with ownerHash := o'.ownerHash }

/-- The life-cycle command that GO found in VLT_LC_CMD is checked and carried out, its OTP writes going as `e` says; power that fails in one
leaves the command under way (R248-R251, R291). -/
def Dev.lcCommand (d : Dev) (e : OtpEnd) : Dev :=
  let cmd := d.vault.lcRec
  let old := d.board.otp
  let r := lcCheck d.vault.lc d.vault.epoch old cmd
  let fin := fun (d : Dev) (res : Nat) =>
    ({ d with vault := { d.vault with lcRec := [], lcBusy := false, lcRes := res } }.clearWords .VLT_LC_CMD 64).irq .VLT_INT_STAT 5
  if d.vault.resetReq then fin d lcNotAllowed else
  match r with
  | .inl res => fin d res
  | .inr o =>
    let part := d.lcPart old o (natOfBytes ((cmd.drop 5).take 1)) e
    match e with
    | .done => fin (d.lcComplete o) lcDone
    | .hashFails | .fuseFails => fin (part.raise 14) lcOtpFail
    | .hashCut | .fuseCut => part

/-- A write of VLT_LC_CTL.GO: the record is taken as it stands (R248, R296). -/
def Dev.lcGo (d : Dev) : Dev :=
  if d.vault.lcBusy then d.irq .VLT_INT_STAT 8 else { d with vault := { d.vault with lcRec := d.wordsBytes .VLT_LC_CMD 0 64, lcBusy := true } }

/-! CK commits. -/

/-- A committed COMMIT: snapshot and start, wait, or SEQ_EXH (R280, R282). -/
def Dev.ckCommit (d : Dev) : Dev :=
  if d.vault.ckBusy then { d with vault := { d.vault with ckPend := true } }
  else if d.vault.ckValid && d.vault.ckSeq == 0xFFFFFFFF then
    { d with vault := { d.vault with ckExh := true, ckLast := 3 } }.irq .VLT_INT_STAT 4
  else { d with vault := { d.vault with ckBusy := true, ckSnap := d.vault.ck } }.addJob .ckCommit

/-- Slot a commit writes, and its SEQ (R280). -/
def Dev.ckTarget (d : Dev) : Nat × Nat :=
  if d.vault.ckValid then (1 - d.vault.ckSlot, d.vault.ckSeq + 1) else (0, 1)

/-- A commit's engine job has ended, and its flash slot is being written (R258, R280). -/
def Dev.ckWriting (d : Dev) : Bool :=
  d.vault.ckBusy && d.vault.engOk && !(d.vault.jobs.any fun j => j.work == JobWork.ckCommit)

/-- The flash write of a commit ends; a commit that waits starts from a snapshot taken then (R280, R281). -/
def Dev.ckWritten (d : Dev) (ok : Bool) : Dev :=
  if !d.ckWriting then d else
  let t := d.ckTarget
  let d := { d with vault := { d.vault with ckBusy := false } }
  let d := d.lifeRise
  let d := if ok then
      let f := flashProgramAt (flashEraseAt d.board.flash (ckSlotAddr t.1) 0x40000) (ckSlotAddr t.1)
        (d.ckSlotBytes d.vault.ckSnap t.2)
      let n := (d.ckSlotBytes d.vault.ckSnap t.2).length
      let d := ((d.setFlash f).pmcSpread 1 2 n).pmcSpread 1 1 n
      { d with vault := { d.vault with ckValid := true, ckSlot := t.1, ckSeq := t.2, ckLast := 1 } }.irq .VLT_INT_STAT 3
    else
      let d := d.scramble (ckSlotAddr t.1) 0x40000
      { d with vault := { d.vault with ckLast := 2 } }.irq .VLT_INT_STAT 4
  if d.vault.ckPend then { d with vault := { d.vault with ckPend := false } }.ckCommit else d

/-! The pair link key. -/

/-- A message of the KEY channel: KIND, PART, LEN and the bytes used (R534). -/
def keyMessage (kind part : Nat) (b : Bytes) : Bytes := [BitVec.ofNat 8 kind, BitVec.ofNat 8 part] ++ bytesOfNat 2 b.length ++ b

/-- Hand a message to the KEY channel; each frame takes one (R533, R534). -/
def Dev.sendKey (d : Dev) (m : Bytes) : Dev := { d with vault := { d.vault with keyQ := d.vault.keyQ ++ [m] } }.emit (.keyMsg m)

/-- The certificate in fragments and the attestation over the partner's nonce (R275 step 2). -/
def Dev.sendAttestation (d : Dev) : Dev :=
  match d.vault.peerNonce with
  | none => d
  | some n =>
    let c := bytesOfNat 48 n.toNat
    let d := forEach 4 d fun d i => d.sendKey (keyMessage 1 i ((d.otp.cert.drop (252 * i)).take 252))
    d.sendKey (keyMessage 2 0 ((d.attestMsg c).take 74 ++ d.attestSign c ++ d.ckOwnerHash))

/-- Draw a lock nonce and send it on the KEY channel, once the Ridge has locked; a partner's nonce that has come is answered
(R275 steps 1 and 2). -/
def Dev.lockNonce (d : Dev) : Dev :=
  if d.vault.trngOk && d.vault.nonce.isNone && d.ridge.linkUp && d.ridge.peerUp then
    let (d, n) := d.draw
    let x : BitVec 384 := n.truncate 384
    ({ d with vault := { d.vault with nonce := some x } }.sendKey (keyMessage 4 0 (bytesOfNat 48 x.toNat))).sendAttestation
  else d

/-- The partner's nonce has come: the exchange goes on once this vault has drawn its own (R275 step 1). -/
def Dev.attestIfDrawn (d : Dev) : Dev := if d.vault.nonce.isSome then d.sendAttestation else d

/-- The partner's certificate as its fragments give it. -/
def Dev.peerCertBytes (d : Dev) : Bytes := (List.range 4).flatMap fun i => tgetD d.vault.peerCert i []

/-- Accept the partner's certificate and attestation, or not (R275 step 3). -/
def Dev.acceptPartner (d : Dev) (data : Bytes) : Option (BitVec 384 × BitVec 384) :=
  let cert := d.peerCertBytes
  match Config.certKey cert, d.vault.nonce with
  | some pub, some own =>
    let msg := data.take 74 ++ bytesOfNat 48 own.toNat
    let sig := (data.drop 74).take 96
    if otpFits d.board.otp .caHash && Config.certVerifies d.otp.caHash cert &&
       ecdsaVerify (pub.1.toNat, pub.2.toNat) (natOfBytes (sha384 msg)) (natOfBytes (sig.take 48)) (natOfBytes (sig.drop 48)) &&
       msg.take 8 == ascii "FIONEATT" && natOfBytes ((msg.drop 8).take 8) == (Config.certSerial cert).toNat &&
       natOfBytes ((msg.drop 16).take 1) == lcCode d.vault.lc && natOfBytes ((msg.drop 17).take 1) == d.vault.epoch &&
       data.drop 170 == d.ckOwnerHash then some pub else none
  | _, _ => none

/-- The pair link key from both identities and both nonces (R275 step 4). -/
def Dev.linkKey (d : Dev) (pub : BitVec 384 × BitVec 384) : Option (BitVec 256) :=
  match ecMul d.vault.ident.toNat (some (pub.1.toNat, pub.2.toNat)), d.vault.nonce, d.vault.peerNonce with
  | some (z, _), some own, some peer =>
    let mine := d.otp.serial.toNat
    let theirs := d.vault.peerSerial.toNat
    let lo := if mine ≤ theirs then (mine, own) else (theirs, peer)
    let hi := if mine ≤ theirs then (theirs, peer) else (mine, own)
    some (agreedKey z "FIONEPLK" (bytesOfNat 8 lo.1 ++ bytesOfNat 8 hi.1 ++ bytesOfNat 48 lo.2.toNat ++ bytesOfNat 48 hi.2.toNat))
  | _, _, _ => none

/-- The exchange ends: the key is agreed and PARTNER_TRUSTED is set (R275 steps 4 and 5). -/
def Dev.linkKeyAgreed (d : Dev) : Dev :=
  match d.vault.peerPub with
  | none => d
  | some pub =>
    match d.linkKey pub with
    | none => d
    | some k => { d with vault := { d.vault with pairKey := k, trusted := true } }

end Sys2Proof.Machine
end

