-- ==== Sys2Proof/Machine/Time.lean ====
section
/-! DEFINITION. Time bases (R442-R446), timestamps (R447-R450), PPS inputs and discipline (R451-R454), PPS outputs
(R455-R457), PTP corrections (R458-R464) and snapshots (R466). -/

namespace Sys2Proof.Machine

/-! Boundary changes. -/

/-- Move to another state, shown by TB_CHG; entering HOLDOVER raises F096 (R453, R470). -/
def Dev.tbState (d : Dev) (n : Nat) (s : TbState) : Dev :=
  let x := d.tb n
  if x.state == s then d else
  let d := (d.setTb n { x with state := s }).irq .TIM_INT_STAT n
  if s == TbState.holdover then d.raise 96 else d

/-- A watchdog of R453 has run out at boundary `b`. -/
def Dev.supvExpired (d : Dev) (n b : Nat) : Bool :=
  let x := d.tb n
  x.state == TbState.track &&
  ((d.supv n == 1 && d.fld .TIM_TB_SUPV [n] 15 0 * 1024 ≤ b - x.last) || (d.supv n == 2 && 2000000 ≤ b - x.last))

/-- Supervision of time base n expires (R453). -/
def Dev.supvExpire (d : Dev) (n b : Nat) : Dev := if d.supvExpired n b then d.tbState n .holdover else d

/-- The state moves of R453 that fell due in the beat that ends, at boundary `b`. -/
def Dev.tbMoves (d : Dev) (b n : Nat) : Dev :=
  let d := match (d.tb n).next with
    | some s => (d.setTb n { d.tb n with next := none }).tbState n s
    | none => d
  d.supvExpire n b

/-- A committed KEEP (R453). -/
def Dev.tbKeep (d : Dev) (n b : Nat) : Dev :=
  let x := d.tb n
  if d.supv n == 1 && x.state != TbState.off && x.next != some TbState.off then
    d.setTb n { x with last := b, next := if x.state == TbState.track then x.next else some TbState.track }
  else d

/-- A commit that changed EN, SUPV or PPS_SEL from the word `old` (R453). -/
def Dev.tbConfig (d : Dev) (n old : Nat) : Dev :=
  let w := d.rd .TIM_TB_CFG [n]
  let x := d.tb n
  if !bit w 31 then (if x.state == TbState.off then d.setTb n { x with next := none } else d.setTb n { x with next := some TbState.off })
  else if x.state == TbState.off then d.setTb n { x with next := some TbState.free }
  else if bits w 29 26 != bits old 29 26 then d.setTb n { x with next := some TbState.free, prevE := 0 }
  else d

/-! PPS inputs. -/

/-- A captured edge of input i: accepted or rejected (R452, R454). -/
def Dev.ppsJudge (d : Dev) (i b : Nat) (caps : List Nat) : Dev :=
  if d.ppsAccepts i b then ((d.ppsAccept i b caps).countFld .TIM_PPSI_CNT [i] 15 0).pmcEvent 12 2
  else
    ((((d.countFld .TIM_PPSI_CNT [i] 31 16).irq .TIM_INT_STAT 8).pmcEvent 12 3)).raise 97

/-- Input i captures an edge in quarter φ of CCLK `offset` of beat `b`, which acts in the beat after beat `k` (R451, R488). -/
def Dev.ppsTake (d : Dev) (i k b offset phi : Nat) (caps : List Nat) : Dev :=
  let y := d.ppsIn i
  (d.setPpsIn i { y with
    offset := offset, phi := phi, beat := b, caps := caps, waiting := y.waiting ++ [(k, caps)] }).irq .TIM_INT_STAT (4 + i)

/-- Capture an edge of input i in quarter φ of the CCLK under way; the active's record carries it (R451, R487). -/
def Dev.ppsCapture (d : Dev) (i phi : Nat) : Dev :=
  (d.ppsTake i d.beat d.beat d.clk.cclk phi (d.stamps d.now phi)).recEvent
    ([1#8, BitVec.ofNat 8 i] ++ bytesOfNat 2 (d.clk.cclk * 4 + phi % 4) ++ bytesOfNat 8 d.beat)

/-- A partner keeps its own capture, to be used only when the active's is lost (R451, R509). -/
def Dev.ppsKeep (d : Dev) (i phi : Nat) : Dev :=
  let y := d.ppsIn i
  d.setPpsIn i { y with kept := y.kept ++ [(d.beat, d.clk.cclk, phi, d.stamps d.now phi)] }

/-- An edge at pin i: level held long enough, the polarity set, input enabled; a partner takes the active's capture
instead (R451). -/
def Dev.ppsEdge (d : Dev) (i phi heldNs : Nat) (falling : Bool) : Dev :=
  let c := d.rd .TIM_PPSI_CFG [i]
  if i < 4 && bit c 31 && bit c 30 == falling && 100 ≤ heldNs then
    if d.partnerState then d.ppsKeep i (phi % 4) else d.ppsCapture i (phi % 4)
  else d

/-- The captures kept of beats up to k: dropped when the record of k is used, else taken as the device's own (R451, R509). -/
def Dev.ppsOwn (d : Dev) (k : Nat) (takes : Bool) : Dev :=
  forEach 4 d fun d i =>
    let l := (d.ppsIn i).kept
    if l.isEmpty then d else
    let d := d.setPpsIn i { d.ppsIn i with kept := l.filter fun c => k < c.1 }
    if takes then
      (l.filter fun c => c.1 ≤ k).foldl (fun (d : Dev) (c : Nat × Nat × Nat × List Nat) =>
        d.ppsTake i c.1 c.1 c.2.1 c.2.2.1 c.2.2.2) d
    else d

/-- The edges of input i captured in beat n - 2 or before are acted on at the boundary that starts beat n: each acts in
the beat after its own (R488). -/
def Dev.ppsActs (d : Dev) (n i : Nat) : Dev :=
  let l := (d.ppsIn i).waiting
  let d := if l.isEmpty then d else d.setPpsIn i { d.ppsIn i with waiting := l.filter fun w => n < w.1 + 2 }
  (l.filter fun w => w.1 + 2 ≤ n).foldl (fun (d : Dev) (w : Nat × List Nat) => d.ppsJudge i (w.1 + 1) w.2) d

/-! PPS outputs. -/

/-- State of PPS output o. -/
def Dev.ppsOut (d : Dev) (o : Nat) : PpsOut := tgetD d.time.pout o ⟨false, none, 0, 0, 0⟩

/-- Put PPS output o. -/
def Dev.setPpsOut (d : Dev) (o : Nat) (x : PpsOut) : Dev := { d with time := { d.time with pout := tset d.time.pout o x } }

/-- Time base of output o. -/
def Dev.ppsoTb (d : Dev) (o : Nat) : Nat := d.fld .TIM_PPSO_CFG [o] 29 28

/-- Output o is held low: SQUELCH is 1 and its time base is not in TRACK (R456). -/
def Dev.squelched (d : Dev) (o : Nat) : Bool :=
  d.flag .TIM_PPSO_CFG [o] 30 && (d.tb (d.ppsoTb o)).state != TbState.track

/-- SEC of the whole second plus OFS that the time base reaches during the CCLK under way (R455). -/
def Dev.ppsSecond (d : Dev) (o : Nat) : Option Nat :=
  let x := d.tb (d.ppsoTb o)
  let v : Int := (tbValue x d.now : Int) - (BitVec.ofNat 32 (d.rd .TIM_PPSO_OFS [o])).toInt * 2 ^ 40
  let s := (v + x.inc - 1) / (secUnits : Int)
  if (v - 1) / (secUnits : Int) < s && 0 ≤ s then some s.toNat else none

/-- What the time base of output o counts from the start of the CCLK under way until it reaches second s plus OFS (R455). -/
def Dev.ppsRest (d : Dev) (o s : Nat) : Nat :=
  let v : Int := (tbValue (d.tb (d.ppsoTb o)) d.now : Int) - (BitVec.ofNat 32 (d.rd .TIM_PPSO_OFS [o])).toInt * 2 ^ 40
  ((s : Int) * secUnits - v).toNat

/-- What output o's time base counts in a CCLK; the nominal rate while it holds its value (R443, R455; log entry 90). -/
def Dev.ppsRate (d : Dev) (o : Nat) : Nat :=
  let x := d.tb (d.ppsoTb o)
  if x.en then x.inc else 0xD555555555

/-- What output o's time base has counted since the reckoning of its pulse, up to the start of absolute CCLK t (R455). -/
def Dev.ppsRun (d : Dev) (o t : Nat) : Nat := d.ppsRate o * (t - (d.ppsOut o).since)

/-- Level of output o in the CCLK under way: its pulse ends when WIDTH is over, by its time base (R455, R477). -/
def Dev.ppsLevel (d : Dev) (o : Nat) : Bool := (d.ppsOut o).level && d.ppsRun o d.now ≤ (d.ppsOut o).left

/-- The pulse of output o is reckoned from CCLK t on, numbered `u` from now on, since rates may change there (R455, R512). -/
def Dev.ppsRoll (t u : Nat) (d : Dev) (o : Nat) : Dev :=
  let x := d.ppsOut o
  if !x.level then d else
  let n := d.ppsRun o t
  d.setPpsOut o { x with level := n ≤ x.left, left := x.left - n, since := u }

/-- The output rises: its time base reaches a second plus OFS, later than that of the last edge (R455, R456). A pulse
still high runs on: its falling edge, in the next second's pulse, is dropped. -/
def Dev.ppsRise (d : Dev) (o : Nat) : Dev :=
  let x := d.ppsOut o
  match d.ppsSecond o with
  | none => d
  | some s =>
    let isNew := match x.lastSec with | none => true | some l => l < s
    if o < 4 && d.flag .TIM_PPSO_CFG [o] 31 && d.clk.run && (d.tb (d.ppsoTb o)).en && isNew && !d.squelched o then
      d.setPpsOut o { level := true, lastSec := some s, left := d.ppsRest o s + d.fld .TIM_PPSO_CFG [o] 19 0 * 1000 * 2 ^ 40,
                       since := d.now, phi := d.ppsRest o s / 2 ^ 38 }
    else d

/-- The output falls WIDTH after its rise, in the CCLK in which its time base has counted that, to a quarter of it (R455). -/
def Dev.ppsFall (d : Dev) (o : Nat) : Dev :=
  let x := d.ppsOut o
  if x.level && x.left < d.ppsRun o (d.now + 1) then
    d.setPpsOut o { x with level := false, phi := (x.left - d.ppsRun o d.now) / 2 ^ 38 } else d

/-! PTP. -/

/-! Snapshots. -/

/-- Latch the four time bases for beat n (R466). -/
def Dev.tbSnapshot (d : Dev) (n : Nat) : Dev :=
  { d with time := { d.time with snapReq := false, snapAt := n,
                                 snap := (List.range 4).map fun i => (i, (d.tb i).val / 2 ^ 24) } }.irq .TIM_INT_STAT 11

end Sys2Proof.Machine
end

