-- ==== Sys2Proof/Machine/Tbm.lean ====
section
/-! DEFINITION. The table memory engine: line operations and their budget (R315, R352), the encrypted and coded line
(R355-R360), faults (R362), scrub and write-backs (R353, R354), calibration (R368, R369), host DMA (R371, R372) and
error injection (R373). -/

namespace Sys2Proof.Machine

/-- Channel Qc is fitted and used (R380). -/
def Dev.chEn (d : Dev) (c : Nat) : Bool := d.flag .TBM_CH_CFG [c] 31

/-- DATA_LINES of a channel. -/
def Dev.dataLines (d : Dev) (c : Nat) : Nat := d.fld .TBM_CH_CFG [c] 21 0

/-- Lines of a channel by density (R347). -/
def Dev.chLines (d : Dev) (c : Nat) : Nat := 2 ^ 20 * 2 ^ d.fld .TBM_CH_CFG [c] 30 29

/-- Key of line a of channel c in the engine's tables. -/
def lineKey (c a : Nat) : Nat := c * 2 ^ 22 + a

/-- Number of the first data line (R349). -/
def dataBase : Nat := 524288

/-- Channel and line of a line id of Dray k: a bucket (R309) or 2^20 plus a data line number (R312). -/
def idChan (k id : Nat) : Nat := 2 * k + id % 2
def idLine (id : Nat) : Nat := if id < 2 ^ 20 then id / 2 else dataBase + (id - 2 ^ 20) / 2

/-! Operations of a beat. -/

/-- Lookup reads of channel c in the beat under way. -/
def Dev.lookups (d : Dev) (c : Nat) : Nat := tgetD d.tbm.used c 0

/-- Line operations of channel c in the beat under way. -/
def Dev.opsUsed (d : Dev) (c : Nat) : Nat := d.lookups c + tgetD d.tbm.used (8 + c) 0

/-- LEARN_RESERVE: operations of a channel that are not open to lookups (R315). -/
def Dev.learnReserve (d : Dev) : Nat := d.fld .CLS_BUDGET [] 7 0

/-- The lookups of the beat under way on channel c are over: its Dray's Outbound pipe has processed its units, or the beat ends
(R316, R352). -/
def Dev.lookupsOver (d : Dev) (c : Nat) : Bool := tgetD d.tbm.used (24 + c / 2) 0 != 0 || d.clk.cclk == 1199

/-- Operations that are left for the users after the lookups: until those are over, what is not open to them (R315, R352). -/
def Dev.opsLeft (d : Dev) (c : Nat) : Nat :=
  (if d.lookupsOver c then 1200 else d.lookups c + d.learnReserve) - d.opsUsed c

/-- Record the peaks (R381). -/
def Dev.opsPeak (d : Dev) (c : Nat) : Dev :=
  (d.peak .TBM_CH_PEAK [c] 10 0 (min 1200 (d.opsUsed c))).peak .TBM_CH_PEAK [c] 26 16 (d.lookups c)

/-- Take one operation of channel c for a user other than the lookups. -/
def Dev.takeOp (d : Dev) (c : Nat) : Dev :=
  { d with tbm := { d.tbm with used := tputN d.tbm.used (8 + c) (tgetD d.tbm.used (8 + c) 0 + 1) } }.opsPeak c

/-- Charge one lookup read to channel c (R316). -/
def Dev.takeLookup (d : Dev) (c : Nat) : Dev :=
  ({ d with tbm := { d.tbm with used := tputN d.tbm.used c (d.lookups c + 1) } }.opsPeak c).pmcEvent 9 1

/-- A lookup read can be charged to channel c (R315). -/
def Dev.lookupLeft (d : Dev) (c : Nat) : Bool := d.lookups c < 1200 - d.learnReserve

/-! The line as the memory holds it. -/

/-- The tweak input of line a of channel c (R357). -/
def tweakIn (c a : Nat) : Bytes :=
  ascii "TBML" ++ [BitVec.ofNat 8 c, 0#8, 0#8, 0#8] ++ bytesOfNat 4 a ++ List.replicate 4 0#8

/-- The line check (R358). -/
def lineCheck (c a : Nat) (v : BitVec 240) : Nat := crc16 (bytesOfNat 30 v.toNat ++ ((tweakIn c a).drop 4).take 8)

/-- Keys KT1 and KT2 (R356). -/
def Dev.kt1 (d : Dev) : BitVec 256 := (tgetD d.tbm.keys 0 0).truncate 256
def Dev.kt2 (d : Dev) : BitVec 256 := (tgetD d.tbm.keys 1 0).truncate 256

/-- The tweaks of the two blocks (R357). -/
def Dev.tweaks (d : Dev) (c a : Nat) : BitVec 128 × BitVec 128 :=
  let t := aesEnc d.kt2 (padBlock (tweakIn c a))
  (t, dbl128 t)

/-- The four codewords of a line (R357, R359). -/
def Dev.lineWords (d : Dev) (c a : Nat) (v : BitVec 240) : List Nat :=
  let t := d.tweaks c a
  let x := v.toNat * 65536 + lineCheck c a v
  let c0 := (aesEnc d.kt1 (BitVec.ofNat 128 (x / 2 ^ 128) ^^^ t.1) ^^^ t.1).toNat
  let c1 := (aesEnc d.kt1 (BitVec.ofNat 128 x ^^^ t.2) ^^^ t.2).toNat
  [c0 / 2 ^ 64, c0 % 2 ^ 64, c1 / 2 ^ 64, c1 % 2 ^ 64].map codeEncode

/-- Decrypt the four data words of a line: entry bits, and whether the line check holds (R357, R358). -/
def Dev.lineOpen (d : Dev) (c a : Nat) (w : List Nat) : BitVec 240 × Bool :=
  let t := d.tweaks c a
  let c0 := BitVec.ofNat 128 (w.getD 0 0 * 2 ^ 64 + w.getD 1 0)
  let c1 := BitVec.ofNat 128 (w.getD 2 0 * 2 ^ 64 + w.getD 3 0)
  let x := (aesDec d.kt1 (c0 ^^^ t.1) ^^^ t.1).toNat * 2 ^ 128 + (aesDec d.kt1 (c1 ^^^ t.2) ^^^ t.2).toNat
  let v := BitVec.ofNat 240 (x / 65536)
  (v, lineCheck c a v == x % 65536)

/-- A read of line a of channel c failed: its source, and TBM_CH_FAIL for the first failure (R362); a STANDBY is no
longer intact (R497). -/
def Dev.lineFail (d : Dev) (c a : Nat) (uncorrectable : Bool) : Dev :=
  let d := if tgetD d.tbm.fail c 0 == 0 then
      { d with tbm := { d.tbm with fail := tset d.tbm.fail c ((if uncorrectable then 2 else 1) * 2 ^ 30 + a % 2 ^ 22) } }
    else d
  let d := d.raise ((if uncorrectable then 72 else 64) + c)
  if d.pair.state == .standby then d.notIntact else d

/-- Error bits a line holds, by bus position 72 × codeword + position. -/
def Dev.lineFlips (d : Dev) (c a : Nat) : List Nat :=
  d.tbm.flips.filterMap fun f => if f.1 == lineKey c a then some f.2 else none

/-- Content a line was last written with; entry bits of zero at a start (R367). -/
def Dev.lineAt (d : Dev) (c a : Nat) : BitVec 240 := tgetD d.tbm.lines (lineKey c a) 0

/-- One codeword with its error bits. -/
def flipWord (flips : List Nat) (i w : Nat) : Nat :=
  flips.foldl (fun w b => if b / 72 == i then w ^^^ 2 ^ (b % 72) else w) w

/-- A correctable error was found in `n` codewords of a line (R354, R360, R362). -/
def Dev.lineCorrected (d : Dev) (c a n : Nat) : Dev :=
  let d := (((d.count .TBM_CH_CORR [c] n).irq .TBM_INT_STAT 1).events (80 + c) 0 n).pmcEvent 9 3 none n
  if d.tbm.wb.contains (lineKey c a) then d else { d with tbm := { d.tbm with wb := d.tbm.wb ++ [lineKey c a] } }

/-- Read line a of channel c: its entry bits, none for an uncorrectable codeword (R360, R362). -/
def Dev.readLine (d : Dev) (c a : Nat) : Dev × Option (BitVec 240) :=
  let fl := d.lineFlips c a
  if fl.isEmpty then (d, some (d.lineAt c a)) else
  let ws := (List.zip (List.range 4) (d.lineWords c a (d.lineAt c a))).map fun iw => codeDecode (flipWord fl iw.1 iw.2)
  if ws.any fun r => r == CodeResult.bad then (d.lineFail c a true, none) else
  let n := (ws.filter fun r => match r with | .corrected _ => true | _ => false).length
  let d := if n == 0 then d else d.lineCorrected c a n
  let x := d.lineOpen c a (ws.map fun r => match r with | .clean x => x | .corrected x => x | .bad => 0)
  if x.2 then (d, some x.1) else (d.lineFail c a false, some x.1)

/-- Line a of channel c is written, by any user: an armed flip of the channel lands in codeword 0 (R373), and a write-back
waiting for the line is dropped (R354). -/
def Dev.setLine (d : Dev) (c a : Nat) (v : BitVec 240) : Dev :=
  let k := lineKey c a
  let rest := d.tbm.flips.filter fun f => f.1 != k
  { d with tbm := { d.tbm with
      lines := tput d.tbm.lines 0 k v, wb := d.tbm.wb.filter (· != k),
      flips := match tget d.tbm.armed c with | some b => rest ++ [(k, b)] | none => rest,
      armed := tdel d.tbm.armed c } }

/-- A write of a line with an operation of a beat. -/
def Dev.writeLine (d : Dev) (c a : Nat) (v : BitVec 240) : Dev := (d.setLine c a v).pmcEvent 9 2

/-- A raw line of the calibration region is written; an armed flip of the channel lands in codeword 0, its first 72 bits (R370,
R373; log entry 73). -/
def Dev.setRaw (d : Dev) (c a : Nat) (v : BitVec 288) : Dev :=
  let x : BitVec 288 := match tget d.tbm.armed c with | some b => v ^^^ BitVec.ofNat 288 (2 ^ (216 + b)) | none => v
  { d with tbm := { d.tbm with raw := tset d.tbm.raw (lineKey c a) x, armed := tdel d.tbm.armed c } }

/-! Scrub and write-backs. -/

/-- A migration or relocation step of the channel's Dray that has not flipped holds the line (R325, R354). -/
def Dev.lineHeld (d : Dev) (c a : Nat) : Bool :=
  (tgetD d.cls (c / 2) .init).steps.any fun s => s.lines.any fun i => idChan (c / 2) i == c && idLine i == a

/-- Write one corrected line back with an operation of the beat that ends, or drop it, or let it wait (R354). -/
def Dev.writeBack (d : Dev) (k : Nat) : Dev :=
  let c := k / 2 ^ 22
  let a := k % 2 ^ 22
  if d.lineHeld c a then { d with tbm := { d.tbm with wb := d.tbm.wb.filter (· != k) } }
  else if 0 < d.opsLeft c then (d.takeOp c).writeLine c a (d.lineAt c a)
  else d

/-- Lines the scrub visits on a channel (R353). -/
def Dev.scrubLines (d : Dev) (c : Nat) : Nat := dataBase + d.dataLines c

/-- One scrub read of channel c, when an operation is left (R353). -/
def Dev.scrubRead (d : Dev) (c : Nat) : Dev :=
  if 0 < d.opsLeft c then
    let a := tgetD d.tbm.scrub c 0
    let d := ((d.takeOp c).readLine c a).1
    { d with tbm := { d.tbm with scrub := tputN d.tbm.scrub c ((a + 1) % d.scrubLines c) } }.pmcEvent 9 4
  else d

/-- Order-4 work of the beat that ends: write-backs, then scrub reads (R352). -/
def Dev.scrubBeat (d : Dev) : Dev :=
  let d := d.tbm.wb.foldl (fun d k => d.writeBack k) d
  forEach 8 d fun d c =>
    if d.chEn c && tgetD d.tbm.ready c 0 == 1 then
      (List.range (d.fld .TBM_SCRUB [] 3 0)).foldl (fun d _ => d.scrubRead c) d
    else d

/-! Calibration. -/

/-- At the boundary of beat n the calibration reads fall due (R368). -/
def Dev.calDue (d : Dev) (n : Nat) : Dev :=
  if n % 2 ^ d.fld .TBM_CAL [] 4 0 == 0 then
    forEach 8 d fun d c =>
      if d.chEn c && tgetD d.tbm.calDue c 0 == 0 then
        { d with tbm := { d.tbm with calDue := tputN d.tbm.calDue c (n + 1) } } else d
  else d

/-- A calibration read 64 beats late is abandoned (R369). -/
def Dev.calAbandon (d : Dev) (c : Nat) : Dev :=
  let t := tgetD d.tbm.calDue c 0
  if t == 0 || d.beat < t - 1 + 64 then d else
  ({ d with tbm := { d.tbm with calDue := tputN d.tbm.calDue c 0 } }.count .TBM_CH_CAL_LATE [c]).irq .TBM_INT_STAT 2

/-! Host DMA. -/

/-- First line of a DMA region and its length (R349, R371). -/
def Dev.dmaRegion (d : Dev) (j : DmaJob) : Nat × Nat :=
  if j.region == 0 then (0, dataBase) else (dataBase, d.dataLines j.chan)

/-- A job ends (R379). -/
def Dev.dmaEnd (d : Dev) (res : Nat) : Dev :=
  { d with tbm := { d.tbm with dma := none, dmaRes := res } }.irq .TBM_INT_STAT 3

/-- A write of TBM_DMA_CTL.GO (R370, R371). -/
def Dev.dmaGo (d : Dev) : Dev :=
  if d.tbm.dma.isSome then d.irq .TBM_INT_STAT 0 else
  let s := d.rd .TBM_DMA_SRC
  let j : DmaJob :=
    { addr := d.rd .TBM_DMA_HADDR_HI * 2 ^ 32 + d.rd .TBM_DMA_HADDR_LO, chan := bits s 31 29, region := bits s 28 27,
      first := bits s 21 0, count := d.fld .TBM_DMA_CNT [] 16 0 }
  let d := { d with tbm := { d.tbm with dmaDone := 0 } }
  if 2 ≤ j.region then (d.irq .TBM_INT_STAT 0).dmaEnd 3
  else if j.count == 0 || 65536 < j.count || !d.chEn j.chan || (d.dmaRegion j).2 < j.first + j.count then d.dmaEnd 2
  else { d with tbm := { d.tbm with dma := some j } }

/-- The record of line a of channel c (R372). -/
def Dev.dmaRecord (d : Dev) (c a : Nat) (v : BitVec 240) : Bytes :=
  let id := if a < dataBase then 2 * a + c % 2 else 2 ^ 20 + 2 * (a - dataBase) + c % 2
  let x := tgetD d.cls (c / 2) .init
  let st := fun s => tgetD x.pos (4 * id + s) 0
  bytesOfNat 30 v.toNat ++ [BitVec.ofNat 8 (st 3 * 64 + st 2 * 16 + st 1 * 4 + st 0), BitVec.ofNat 8 (tgetD x.gen id 0)]

/-- One line of a job: read with an operation that is left beside `keep` of them, and its record written (R352, R371). -/
def Dev.dmaLine (d : Dev) (keep : Nat) (j : DmaJob) : Dev :=
  if d.tbm.dmaDone < j.count && keep < d.opsLeft j.chan then
    let a := (d.dmaRegion j).1 + j.first + d.tbm.dmaDone
    let r := (d.takeOp j.chan).readLine j.chan a
    match r.2 with
    | none => r.1
    | some v =>
      { r.1 with tbm := { r.1.tbm with dmaDone := r.1.tbm.dmaDone + 1 } }.emit
        (.dma (j.addr + 32 * d.tbm.dmaDone) (r.1.dmaRecord j.chan a v))
  else d

/-- The lines of a job that the beat under way still serves beside `keep` operations (R352). -/
def Dev.dmaServe (d : Dev) (keep : Nat) : Dev :=
  match d.tbm.dma with
  | some j => (List.range (min 1200 (j.count - d.tbm.dmaDone))).foldl (fun d _ => d.dmaLine keep j) d
  | none => d

/-- A write of TBM_INJ with ARM = 1 (R373). -/
def Dev.armFlip (d : Dev) (c b : Nat) : Dev :=
  if c < 8 && b < 72 then { d with tbm := { d.tbm with armed := tset d.tbm.armed c b } } else d

end Sys2Proof.Machine
end

