-- ==== Sys2Proof/Machine/Cls.lean ====
section
/-! DEFINITION. Classification and learning: the TCAM (R303, R304), the exact-match table (R307-R310), the data class
(R311-R314), precedence (R319), host requests (R322), migration and relocation (R323-R325, R686), learning (R326-R329),
aging and flush (R332, R333). -/

namespace Sys2Proof.Machine

/-- Classification state of Dray k. -/
def Dev.dray (d : Dev) (k : Nat) : ClsDray := tgetD d.cls k .init

/-- Put the classification state of Dray k. -/
def Dev.setDray (d : Dev) (k : Nat) (x : ClsDray) : Dev := { d with cls := tput d.cls .init k x }

/-- Counter c of CLS_CNT (R344). -/
def Dev.clsCnt (d : Dev) (k c : Nat) : Dev := d.count .CLS_CNT [k, c]

/-- The channels of a Dray are enabled (R350, R351). -/
def Dev.clsOn (d : Dev) (k : Nat) : Bool := d.chEn (2 * k) && d.chEn (2 * k + 1)

/-- CLS_PORT(p), field by field (R339). -/
def Dev.clsPort (d : Dev) (p hi lo : Nat) : Nat := d.fld .CLS_PORT [p] hi lo

/-! The control class. -/

/-- The 160-bit search key of a unit on client port p (R303). -/
def tcamKey (p : Nat) (u : Parsed) : Nat :=
  let pix := portIx p * 2 ^ 157
  let pcp := u.pcp.getD 0
  let top := fun (t : Nat) => pix + t * 2 ^ 155 + u.vid * 2 ^ 143
  match u.kind with
  | .other => top 0 + u.etype * 2 ^ 127 + u.da * 2 ^ 79 + pcp * 2 ^ 76 + u.after * 2 ^ 44
  | .ipv4 => top 1 + u.dip * 2 ^ 111 + u.sip * 2 ^ 79 + u.proto * 2 ^ 71 + u.dport * 2 ^ 55 + u.sport * 2 ^ 39 +
             u.dscp * 2 ^ 33 + pcp * 2 ^ 30
  | .ipv6 => top 2 + u.dip * 2 ^ 15 + u.proto * 2 ^ 7 + u.dscp * 2

/-- VALUE and MASK of TCAM entry e (R345). -/
def tcamVm (w : Tab Word) (e : Nat) : Nat × Nat :=
  let n := fun o => (List.range 5).foldl (fun a i => a + wordAt w (Reg.key .TCAM_KEY [e, o + i]) * 2 ^ (32 * i)) 0
  (n 0, n 5)

/-- A valid entry matches a key (R304). -/
def tcamHit (w : Tab Word) (key e : Nat) : Bool :=
  let x := tcamVm w e
  (key &&& x.2) == (x.1 &&& x.2)

/-- Valid entries of the TCAM of Dray k, by rising index: index and RESULT. -/
def tcamValid (w : Tab Word) (k : Nat) : List (Nat × Nat) :=
  w.filterMap fun x =>
    if x.1 / 0x10000000 == 5 && x.1 % 64 == 40 && x.1 % 0x10000000 / 64 / 4096 == k && x.2.getLsbD 31 then
      some (x.1 % 0x10000000 / 64, x.2.toNat)
    else none

/-- The search of R304: RESULT of the lowest matching entry. -/
def Dev.tcamSearch (d : Dev) (k key : Nat) : Option Nat :=
  ((tcamValid d.words k).find? fun e => tcamHit d.words key e.1).map (·.2)

/-! The exact-match table. -/

/-- Key K of R307. -/
def emKey (pix vid da : Nat) : Nat := pix * 2 ^ 60 + vid * 2 ^ 48 + da

/-- Rotate a 20-bit value left. -/
def rotl20 (x n : Nat) : Nat := (x * 2 ^ n) % 2 ^ 20 + x / 2 ^ (20 - n)

/-- S0 and S1 (R338). -/
def Dev.emSeed (d : Dev) (i : Nat) : Nat :=
  if i == 0 then d.rd .CLS_EM_SEED0_LO + d.fld .CLS_EM_SEED0_HI [] 10 0 * 2 ^ 32
  else d.rd .CLS_EM_SEED1_LO + d.fld .CLS_EM_SEED1_HI [] 10 0 * 2 ^ 32

/-- g0 and g1 of a quotient (R308). -/
def emG (s0 s1 q : Nat) : Nat × Nat :=
  let x0 := q ^^^ s0
  let x1 := q ^^^ s1
  let g0 := bits x0 19 0 ^^^ bits x0 39 20 ^^^ (bits x0 42 40 * 2 ^ 17)
  let g1 := rotl20 (bits x1 19 0) 7 ^^^ rotl20 (bits x1 39 20) 13 ^^^ bits x1 42 40
  (g0, g1 / 2 * 2 + (1 - g0 % 2))

/-- Candidate bucket h of a key (R308). -/
def Dev.emBucket (d : Dev) (key h : Nat) : Nat :=
  let g := emG (d.emSeed 0) (d.emSeed 1) (key / 2 ^ 20)
  (key % 2 ^ 20) ^^^ (if h == 0 then g.1 else g.2)

/-- Slot s of a bucket line, 60 bits (R310). -/
def slot60 (v : BitVec 240) (s : Nat) : Nat := bits v.toNat (60 * s + 59) (60 * s)

/-- Replace bits [lo+n-1:lo] of a line. -/
def putBits (v : BitVec 240) (lo n x : Nat) : BitVec 240 :=
  BitVec.ofNat 240 (v.toNat - bits v.toNat (lo + n - 1) lo * 2 ^ lo + x * 2 ^ lo)

/-- The content of a bucket slot (R310). -/
def emEntry (q h coach : Nat) : Nat := q * 2 ^ 17 + h * 2 ^ 16 + coach

/-- The key of the entry a bucket slot holds (R310). -/
def Dev.slotKey (d : Dev) (b x : Nat) : Nat :=
  let q := x / 2 ^ 17
  let g := emG (d.emSeed 0) (d.emSeed 1) q
  q * 2 ^ 20 + (b ^^^ (if bit x 16 then g.2 else g.1))

/-- Position state of a slot of a line. -/
def posOf (x : ClsDray) (id s : Nat) : Nat := tgetD x.pos (4 * id + s) 0

/-- First slot of bucket b, candidate h, that holds the key with a position state that `p` takes (R310, R319). -/
def matchSlot (x : ClsDray) (b h key : Nat) (v : BitVec 240) (p : Nat → Bool) : Option Nat :=
  (List.range 4).find? fun s =>
    posOf x b s != 0 && p (posOf x b s) && slot60 v s / 2 ^ 17 == key / 2 ^ 20 && bits (slot60 v s) 16 16 == h

/-- First EMPTY slot of a line with `n` slots. -/
def emptySlot (x : ClsDray) (id n : Nat) : Option Nat := (List.range n).find? fun s => posOf x id s == 0

/-! The overflow store. -/

/-- A HOST entry (R317). -/
def isHost (e : OvfEntry) : Bool := e.kind != .learned

/-- The HOST entry of a key. -/
def ovfHost (x : ClsDray) (k : OvfKey) : Option (Nat × OvfEntry) := x.ovf.find? fun e => e.2.key == k && isHost e.2

/-- The LEARNED entry of a key. -/
def ovfLearned (x : ClsDray) (k : OvfKey) : Option (Nat × OvfEntry) := x.ovf.find? fun e => e.2.key == k && !isHost e.2

/-- Lowest free index from `i`, among rising taken indices; `n` indices are looked at. -/
def lowestFree : Nat → Nat → List Nat → Option Nat
  | 0, _, _ => none
  | _ + 1, i, [] => some i
  | n + 1, i, t :: r => if t < i then lowestFree (n + 1) i r else if t == i then lowestFree n (i + 1) r else some i

/-- Free HOST and LEARNED entries (R322, R328). -/
def freeHost (x : ClsDray) : Option Nat := lowestFree 2048 0 ((x.ovf.map (·.1)).filter (· < 2048))
def freeLearned (x : ClsDray) : Option Nat := lowestFree 14336 2048 ((x.ovf.map (·.1)).filter (2048 ≤ ·))

/-- Result of a table lookup. -/
inductive Lookup where
  | hit (coach : Nat)
  | miss
  | budget
  | probeCap
  deriving DecidableEq, Repr

/-- Exact-match lookup of key `key` in Dray k (R308-R310, R316, R319, R351). -/
def Dev.lookupExact (d : Dev) (k key : Nat) : Dev × Lookup :=
  if !d.clsOn k then ((d.clsCnt k 1).pmcEvent 8 2, .miss) else
  if !(d.lookupLeft (2 * k) && d.lookupLeft (2 * k + 1)) then
    ((d.clsCnt k 5).irq .CLS_INT_STAT 0, .budget)
  else
  let d := (d.takeLookup (2 * k)).takeLookup (2 * k + 1)
  let b0 := d.emBucket key 0
  let b1 := d.emBucket key 1
  let r0 := d.readLine (idChan k b0) (idLine b0)
  let r1 := r0.1.readLine (idChan k b1) (idLine b1)
  let d := r1.1
  let x := d.dray k
  let find := fun (p : Nat → Bool) =>
    (r0.2.bind fun v => (matchSlot x b0 0 key v p).map fun s => slot60 v s % 65536).orElse fun _ =>
    r1.2.bind fun v => (matchSlot x b1 1 key v p).map fun s => slot60 v s % 65536
  let bucket := fun (_ : Unit) => (find (· == 1)).orElse fun _ =>
    ((ovfLearned x (.exact key)).map (·.2.coach)).orElse fun _ => find (2 ≤ ·)
  let res := match ovfHost x (.exact key) with
    | some (_, e) => if e.kind == .hostTomb then none else some e.coach
    | none => bucket ()
  match res with
  | some c => ((d.clsCnt k 0).pmcEvent 8 1, .hit c)
  | none => ((d.clsCnt k 1).pmcEvent 8 2, .miss)

/-! The data class. -/

/-- The length word x of a family: EN, LEN, LOG2, BASE (R342). -/
def Dev.dlen (d : Dev) (v6 : Bool) (x : Nat) : Nat := d.rd (if v6 then .CLS_DLEN6 else .CLS_DLEN4) [x]

/-- Enabled lengths of a family, longest first (R314). -/
def Dev.dlens (d : Dev) (v6 : Bool) : List Nat :=
  let l := ((List.range 8).map fun x => d.dlen v6 x).filter fun w => bit w 31
  ((List.range 65).reverse).flatMap fun n => l.filter fun w => bits w 30 24 == n

/-- Bits of the data class address of a family. -/
def dataBits (v6 : Bool) : Nat := if v6 then 64 else 32

/-- v of R312. -/
def maskAddr (v6 : Bool) (len a : Nat) : Nat := a / 2 ^ (dataBits v6 - len) * 2 ^ (dataBits v6 - len)

/-- i1 and i2 of R312. -/
def Dev.bloomIx (d : Dev) (v6 : Bool) (v : Nat) : Nat × Nat :=
  let w := if v6 then bits v 63 32 ^^^ bits v 31 0 else v
  let g := w ^^^ (if v6 then d.rd .CLS_BLOOM_SEED6 else d.rd .CLS_BLOOM_SEED4)
  let lo := bits g 15 0
  (bits g 31 16 ^^^ lo, bits g 31 16 ^^^ ((lo * 32) % 65536 + lo / 2048))

/-- Key of a Bloom bit of a family and length (R311). -/
def bloomKey (v6 : Bool) (len i : Nat) : Nat := ((if v6 then 128 else 0) + len) * 65536 + i

/-- Line id of the bucket of v under length word w (R312). -/
def Dev.dataId (d : Dev) (v6 : Bool) (w v : Nat) : Nat :=
  let i := d.bloomIx v6 v
  2 ^ 20 + bits w 18 0 * 16 + (i.2 * 65536 + i.1) % 2 ^ bits w 23 19

/-- Slots of a data line, and the value and coach of slot s (R313). -/
def dataSlots (v6 : Bool) : Nat := if v6 then 2 else 4
def dataVal (v6 : Bool) (v : BitVec 240) (s : Nat) : Nat :=
  if v6 then bits v.toNat (120 * s + 119) (120 * s + 56) else bits v.toNat (60 * s + 59) (60 * s + 28)
def dataCoach (v6 : Bool) (v : BitVec 240) (s : Nat) : Nat :=
  if v6 then bits v.toNat (120 * s + 55) (120 * s + 40) else bits v.toNat (60 * s + 27) (60 * s + 12)

/-- The overflow key of a prefix. -/
def prefixKey (v6 : Bool) (len v : Nat) : OvfKey := if v6 then .prefix6 len v else .prefix4 len v

/-- Slot of a data line that holds v (R313). -/
def matchData (x : ClsDray) (v6 : Bool) (id v : Nat) (l : BitVec 240) : Option Nat :=
  (List.range (dataSlots v6)).find? fun s => posOf x id s != 0 && dataVal v6 l s == v

/-- The probes of R314 over the lengths that are left. -/
def Dev.probe (d : Dev) (k : Nat) (v6 : Bool) (a : Nat) : List Nat → Nat → Dev × Lookup
  | [], _ => ((d.clsCnt k 3), .miss)
  | w :: rest, n =>
    let len := bits w 30 24
    let v := maskAddr v6 len a
    let i := d.bloomIx v6 v
    let x := d.dray k
    if !(tgetD x.bloom (bloomKey v6 len i.1) 0 == 1 && tgetD x.bloom (bloomKey v6 len i.2) 0 == 1) then
      Dev.probe d k v6 a rest n
    else if n == d.fld .CLS_BUDGET [] 11 8 then ((d.clsCnt k 6).irq .CLS_INT_STAT 1, .probeCap)
    else
    let id := d.dataId v6 w v
    if !d.lookupLeft (idChan k id) then ((d.clsCnt k 5).irq .CLS_INT_STAT 0, .budget) else
    let r := ((d.takeLookup (idChan k id)).pmcEvent 8 3).readLine (idChan k id) (idLine id)
    let found := match ovfHost x (prefixKey v6 len v) with
      | some (_, e) => if e.kind == .hostTomb then none else some e.coach
      | none => r.2.bind fun l => (matchData x v6 id v l).map fun s => dataCoach v6 l s
    match found with
    | some c => (r.1.clsCnt k 2, .hit c)
    | none => Dev.probe r.1 k v6 a rest (n + 1)

/-- Data lookup of a unit in Dray k (R311, R314, R351). -/
def Dev.lookupData (d : Dev) (k : Nat) (u : Parsed) : Dev × Lookup :=
  let v6 := u.kind == .ipv6
  if !d.clsOn k then (d.clsCnt k 3, .miss)
  else d.probe k v6 (if v6 then u.dip / 2 ^ 64 else u.dip) (d.dlens v6) 0

/-- What R302 gives a unit: an action with its coach, a miss, or a drop; and the TC of a control-class result. -/
inductive Decision where
  | protect (coach : Nat)
  | clear
  | drop
  | miss
  | budget
  | probeCap
  deriving DecidableEq, Repr

/-- A table result as a decision (R302). -/
def ofLookup : Lookup → Decision
  | .hit c => if c == 0 then .clear else .protect c
  | .miss => .miss
  | .budget => .budget
  | .probeCap => .probeCap

/-- Classify a unit on client port p (R302). -/
def Dev.classifyUnit (d : Dev) (p : Nat) (u : Parsed) : Dev × Decision × Option Nat :=
  let k := drayOf p
  match d.tcamSearch k (tcamKey p u) with
  | some r =>
    let d := d.clsCnt k 4
    let a := bits r 30 29
    (d, if a == 0 then .protect (bits r 15 0) else if a == 1 then .clear else .drop,
     if bit r 28 then some (bits r 27 25) else none)
  | none =>
    let sel := match u.kind with
      | .ipv4 => d.clsPort p 23 22
      | .ipv6 => d.clsPort p 25 24
      | .other => d.clsPort p 27 26
    if sel == 2 then (d, .miss, none)
    else if sel == 1 then let r := d.lookupData k u; (r.1, ofLookup r.2, none)
    else let r := d.lookupExact k (emKey (portIx p) u.vid u.da); (r.1, ofLookup r.2, none)

/-- Traffic class of a unit on client port p (R301). -/
def Dev.unitTc (d : Dev) (p : Nat) (ctl : Option Nat) (pcp : Option Nat) : Nat :=
  match ctl, pcp with
  | some t, _ => t
  | none, some i => d.fld .CLS_PCPMAP [p] (3 * i + 2) (3 * i)
  | none, none => d.clsPort p 21 19

/-! Learn cache, counts and position changes. -/

/-- Write the learn cache line of a key (R318). -/
def Dev.cachePut (d : Dev) (k key coach : Nat) (loc : CacheLoc) : Dev :=
  let x := d.dray k
  d.setDray k { x with cache := tset x.cache (d.emBucket key 0 % 65536) ⟨key, coach, loc⟩ }

/-- A removal clears the line only if it holds the key (R318). -/
def Dev.cacheDrop (d : Dev) (k key : Nat) : Dev :=
  let x := d.dray k
  let i := d.emBucket key 0 % 65536
  match tget x.cache i with
  | some l => if l.key == key then d.setDray k { x with cache := tdel x.cache i } else d
  | none => d

/-- Client port of a key of Dray k (R329). -/
def keyPort (k key : Nat) : Nat := 8 * k + key / 2 ^ 60

/-- CLS_LCOUNT of a key's port goes up or down by one (R329). -/
def Dev.lcountUp (d : Dev) (k key : Nat) : Dev :=
  d.wr .CLS_LCOUNT [keyPort k key] (d.rd .CLS_LCOUNT [keyPort k key] + 1)
def Dev.lcountDown (d : Dev) (k key : Nat) : Dev :=
  d.wr .CLS_LCOUNT [keyPort k key] (d.rd .CLS_LCOUNT [keyPort k key] - 1)

/-- Set a position state. -/
def Dev.setPos (d : Dev) (k id s st : Nat) : Dev :=
  let x := d.dray k
  d.setDray k { x with pos := tputN x.pos (4 * id + s) st }

/-- Free an overflow entry. -/
def Dev.freeOvf (d : Dev) (k i : Nat) : Dev :=
  let x := d.dray k
  d.setDray k { x with ovf := tdel x.ovf i }

/-- Put an overflow entry. -/
def Dev.putOvf (d : Dev) (k i : Nat) (e : OvfEntry) : Dev :=
  let x := d.dray k
  d.setDray k { x with ovf := tset x.ovf i e }

/-- Write a move record of a key at the boundary that starts beat n (R328). -/
def Dev.moveRecord (d : Dev) (k key n : Nat) : Dev :=
  let hold := d.fld .CLS_MOVE [] 15 0
  if hold == 0 then d else
  let x := d.dray k
  let i := match lowestFree 2048 0 (x.moves.map (·.1)) with
    | some i => i
    | none => (x.moves.foldl (fun (m : Nat × Nat) r => if r.2.release < m.2 then (r.1, r.2.release) else m)
        (0, (x.moves.headD (0, ⟨0, 0⟩)).2.release)).1
  d.setDray k { x with moves := tset x.moves i ⟨key, n + hold⟩ }

/-! Migration. -/

/-- Candidate line ids of an overflow key; a data key has one (R323). -/
def Dev.candidates (d : Dev) : OvfKey → List Nat
  | .exact key => [d.emBucket key 0, d.emBucket key 1]
  | .prefix4 len v => ((d.dlens false).filter fun w => bits w 30 24 == len).map fun w => d.dataId false w v
  | .prefix6 len v => ((d.dlens true).filter fun w => bits w 30 24 == len).map fun w => d.dataId true w v

/-- Generation tag of a line id. -/
def genOf (x : ClsDray) (id : Nat) : Nat := tgetD x.gen id 0

/-- Slots of the lines an overflow key lives in. -/
def keySlots : OvfKey → Nat
  | .exact _ => 4
  | .prefix4 .. => 4
  | .prefix6 .. => 2

/-- Slot of a candidate line that holds a key (R310, R313). -/
def keyMatch (x : ClsDray) (key : OvfKey) (h id : Nat) (v : BitVec 240) : Option Nat :=
  match key with
  | .exact q => matchSlot x id h q v fun _ => true
  | .prefix4 _ a => matchData x false id a v
  | .prefix6 _ a => matchData x true id a v

/-- First candidate, with its slot, for which `f` gives a slot. -/
def firstCand (f : Nat → Nat → Option Nat) : List Nat → Nat → Option (Nat × Nat)
  | [], _ => none
  | id :: r, h => match f h id with | some s => some (id, s) | none => firstCand f r (h + 1)

/-- What a step does with what it found (R323). -/
def planStep (x : ClsDray) (e : OvfEntry) (ids : List Nat) (line : Nat → BitVec 240) : Flip :=
  match firstCand (fun h id => keyMatch x e.key h id (line id)) ids 0 with
  | some (id, s) =>
    if e.kind == .hostTomb then .empty id s
    else if posOf x id s == 1 && !isHost e then .free true
    else .place id s false (!isHost e && 2 ≤ posOf x id s && slot60 (line id) s % 65536 != e.coach)
  | none =>
    if e.kind == .hostTomb then .free false
    else match firstCand (fun _ id => emptySlot x id (keySlots e.key)) ids 0 with
      | some (id, s) => .place id s true false
      | none => match e.key with | .exact _ => .scan | _ => .park

/-- A step that writes nothing flips at the next boundary. -/
def flipReady : Flip → Bool
  | .free _ => true
  | .empty .. => true
  | .park => true
  | _ => false

/-- The line written for an entry placed in slot s of line id (R310, R313). -/
def Dev.placeLine (d : Dev) (key : OvfKey) (coach id s : Nat) (v : BitVec 240) : BitVec 240 :=
  match key with
  | .exact q => putBits v (60 * s) 60 (emEntry (q / 2 ^ 20) (if id == d.emBucket q 0 then 0 else 1) coach)
  | .prefix4 _ a => putBits v (60 * s) 60 (a * 2 ^ 28 + coach * 2 ^ 12)
  | .prefix6 _ a => putBits v (120 * s) 120 (a * 2 ^ 56 + coach * 2 ^ 40)

/-- Line id of Dray k as the memory holds it, for the engine's own write. -/
def Dev.idAt (d : Dev) (k id : Nat) : BitVec 240 := d.lineAt (idChan k id) (idLine id)

/-- Lines held by the steps of a Dray other than the one of overflow index `i` (R325). -/
def heldBy (x : ClsDray) (i : Nat) : List Nat := (x.steps.filter fun s => s.idx != i).flatMap (·.lines)

/-- Replace the step of an overflow index. -/
def Dev.putStep (d : Dev) (k : Nat) (s : MigStep) : Dev :=
  let x := d.dray k
  d.setDray k { x with steps := x.steps.map fun t => if t.idx == s.idx then s else t }

/-- End the step of an overflow index. -/
def Dev.dropStep (d : Dev) (k i : Nat) : Dev :=
  let x := d.dray k
  d.setDray k { x with steps := x.steps.filter fun t => t.idx != i }

/-- Grant a step its write, when its channel has an operation left (R686). -/
def Dev.grantWrite (d : Dev) (k : Nat) (s : MigStep) (id : Nat) (v : BitVec 240) : Option Dev :=
  if d.opsLeft (idChan k id) == 0 then none
  else some (((d.takeOp (idChan k id)).writeLine (idChan k id) (idLine id) v).putStep k { s with ready := true })

/-- The other candidate of the resident in slot s of bucket b, and its H (R324). -/
def Dev.otherOf (d : Dev) (b s : Nat) (v : BitVec 240) : Nat × Nat × Nat :=
  let e := slot60 v s
  let key := d.slotKey b e
  let h := bits e 16 16
  (d.emBucket key (1 - h), 1 - h, key)

/-- Examine the residents from `s.next` on, the tag of every line that is read being recorded: until an operation is missing (R324,
R325). `fuel` counts residents. -/
def Dev.scanStep (d : Dev) (k : Nat) : Nat → MigStep → Dev
  | 0, s => if s.skip then d.dropStep k s.idx else d.putStep k { s with flip := .park, ready := true }
  | fuel + 1, s =>
    let x := d.dray k
    let b := s.lines.getD (s.next / 4) 0
    let slot := s.next % 4
    let o := d.otherOf b slot (d.idAt k b)
    if (heldBy x s.idx).contains o.1 then Dev.scanStep d k fuel { s with next := s.next + 1, skip := true }
    else if d.opsLeft (idChan k o.1) == 0 then d.putStep k s
    else
      let r := (d.takeOp (idChan k o.1)).readLine (idChan k o.1) (idLine o.1)
      match emptySlot x o.1 4, r.2 with
      | some t, some _ =>
        let s' := { s with flip := .relocate b slot o.1 t, lines := s.lines ++ [o.1],
                           gens := s.gens ++ [(o.1, genOf x o.1)] }
        (r.1.putStep k s').pmcEvent 8 6
      | _, _ => Dev.scanStep r.1 k fuel { s with next := s.next + 1, gens := s.gens ++ [(o.1, genOf x o.1)] }

/-- Let a step under way go on with the operations that are left (R323, R324, R686). -/
def Dev.runStep (d : Dev) (k : Nat) (s : MigStep) : Option Dev :=
  if s.ready then none else
  match s.flip with
  | .place id slot _ _ => d.grantWrite k s id (d.placeLine s.entry.key s.entry.coach id slot (d.idAt k id))
  | .relocate b slot b2 slot2 =>
    let e := slot60 (d.idAt k b) slot
    d.grantWrite k s b2 (putBits (d.idAt k b2) (60 * slot2) 60 (emEntry (e / 2 ^ 17) (1 - bits e 16 16) (e % 65536)))
  | .scan =>
    let o := (d.otherOf (s.lines.getD (s.next / 4) 0) (s.next % 4) (d.idAt k (s.lines.getD (s.next / 4) 0))).1
    if d.opsLeft (idChan k o) == 0 && !(heldBy (d.dray k) s.idx).contains o then none
    else some (d.scanStep k (8 - s.next) s)
  | _ => none

/-- An overflow entry that a new step may take: not parked under unchanged tags, no candidate held (R323, R324). -/
def Dev.mayStart (d : Dev) (k : Nat) (x : ClsDray) (ie : Nat × OvfEntry) : Bool :=
  let ids := d.candidates ie.2.key
  !ids.isEmpty && !(x.steps.any fun s => s.idx == ie.1) &&
  !(ids.any fun id => (heldBy x ie.1).contains id) &&
  (match ie.2.parked with
   | some g => g != (genOf x (ids.getD 0 0), genOf x (ids.getD 1 (ids.getD 0 0)))
   | none => true) &&
  ids.all fun id => 0 < d.opsLeft (idChan k id)

/-- Start a step: its candidate reads are granted together (R323, R686). -/
def Dev.startStep (d : Dev) (k : Nat) (i : Nat) (e : OvfEntry) : Dev :=
  let ids := d.candidates e.key
  let d := ids.foldl (fun d id => ((d.takeOp (idChan k id)).readLine (idChan k id) (idLine id)).1) d
  let x := d.dray k
  let f := planStep x e ids fun id => d.idAt k id
  let s : MigStep :=
    { idx := i, entry := { e with parked := none, seen := true }, lines := ids, gens := ids.map fun id => (id, genOf x id),
      flip := f, ready := flipReady f, next := 0, skip := false }
  let d := d.setDray k { x with steps := x.steps ++ [s] }
  let d := d.pmcEvent 8 5
  (d.runStep k s).getD d

/-- The first of some steps that can go on does. -/
def Dev.runFirst (d : Dev) (k : Nat) : List MigStep → Option Dev
  | [] => none
  | s :: r => match d.runStep k s with | some e => some e | none => Dev.runFirst d k r

/-- One step of the engine of Dray k: the oldest step under way that can go on, else a new one in the order of R323
(R686). -/
def Dev.migrate (d : Dev) (k : Nat) : Dev :=
  if 4 ≤ k || !d.clsOn k || d.preRun then d else
  match d.runFirst k (d.dray k).steps with
  | some e => e
  | none =>
    match (d.dray k).ovf.find? fun ie => d.mayStart k (d.dray k) ie with
    | some ie => d.startStep k ie.1 ie.2
    | none => d

/-! The users of a channel after migration (R352). -/

/-- The engine of Dray k goes on until none of its steps can be granted an operation; the fuel bounds its steps in a beat. -/
def Dev.migrateAll : Nat → Nat → Dev → Dev
  | 0, _, d => d
  | n + 1, k, d =>
    let e := d.migrate k
    if (e.dray k).steps == (d.dray k).steps then d else Dev.migrateAll n k e

/-- Operations of channel c that migration and relocation can still take in the beat under way (R352, R686). -/
def Dev.migOwed (d : Dev) (c : Nat) : Nat := (Dev.migrateAll 2400 (c / 2) d).opsUsed c - d.opsUsed c

/-- Operations of the beat under way that migration, calibration, write-backs and scrub reads of channel c still have coming (R352). -/
def Dev.owed (d : Dev) (c : Nat) : Nat :=
  d.migOwed c + b2n (tgetD d.tbm.calDue c 0 != 0) + (d.tbm.wb.filter fun k => k / 2 ^ 22 == c).length +
  (if d.chEn c && tgetD d.tbm.ready c 0 == 1 then d.fld .TBM_SCRUB [] 3 0 else 0)

/-- Operations that a running DMA job can still take on channel c (R352). -/
def Dev.dmaOwed (d : Dev) (c : Nat) : Nat :=
  match d.tbm.dma with
  | some j => if j.chan == c then j.count - d.tbm.dmaDone else 0
  | none => 0

/-- Operations that the users before it leave to debug in the beat under way (R352). -/
def Dev.lowLeft (d : Dev) (c : Nat) : Nat := d.opsLeft c - d.owed c - d.dmaOwed c

/-- The calibration read of channel c is served, after migration, and finds `eye` taps at the narrowest (R368, R369). -/
def Dev.calRead (d : Dev) (c eye : Nat) : Dev :=
  if tgetD d.tbm.calDue c 0 == 0 || d.opsLeft c ≤ d.migOwed c || 8 ≤ c then d else
  let was := tgetD d.tbm.margin c 0
  let d := d.takeOp c
  let d := { d with tbm := { d.tbm with calDue := tputN d.tbm.calDue c 0, margin := tputN d.tbm.margin c (eye % 256) } }
  if eye < 2 && 2 ≤ was then d.events (88 + c) 1 1 else d

/-- The last record write is completed, or one was not (R371, R379, R552). -/
def Dev.dmaDone (d : Dev) (ok : Bool) : Dev :=
  match d.tbm.dma with
  | none => d
  | some j =>
    if !ok then (d.dmaEnd 4).raise 153 else
    let d := d.dmaServe (d.owed j.chan)
    if d.tbm.dmaDone == j.count then d.dmaEnd 1 else d

/-! The boundary. -/

/-- State a position takes from an overflow entry: STATIC for HOST, idle or seen for LEARNED (R323). -/
def stateFor (e : OvfEntry) : Nat := if isHost e then 1 else if e.seen then 3 else 2

/-- The entry was merged into, emptied from or placed over a LEARNED position: its port counts one less (R329). -/
def Dev.flipPlace (d : Dev) (k n i : Nat) (e : OvfEntry) (id slot : Nat) (migrated moved : Bool) : Dev :=
  let was := posOf (d.dray k) id slot
  let d := match e.key with
    | .exact key =>
      let d := if !migrated && 2 ≤ was then d.lcountDown k key else d
      let d := if moved then d.moveRecord k key n else d
      d.cachePut k key e.coach (.bucket id slot)
    | _ => d
  let d := (d.setPos k id slot (stateFor e)).freeOvf k i
  if migrated then d.clsCnt k 15 else d

/-- The flip of a step whose operations are done, at the boundary that starts beat n (R323, R324). -/
def Dev.flipStep (d : Dev) (k n : Nat) (s : MigStep) : Dev :=
  match tget (d.dray k).ovf s.idx with
  | none => d.dropStep k s.idx
  | some e =>
    match s.flip with
    | .free static =>
      let d := match e.key with
        | .exact key => let d := if static then d.lcountDown k key else d; d.cacheDrop k key
        | _ => d
      let d := (d.freeOvf k s.idx).dropStep k s.idx
      if static then d.clsCnt k 13 else d
    | .empty id slot =>
      let d := match e.key with
        | .exact key => (if 2 ≤ posOf (d.dray k) id slot then d.lcountDown k key else d).cacheDrop k key
        | _ => d
      ((d.setPos k id slot 0).freeOvf k s.idx).dropStep k s.idx
    | .place id slot m mv => (d.flipPlace k n s.idx e id slot m mv).dropStep k s.idx
    | .relocate b slot b2 slot2 =>
      let st := posOf (d.dray k) b slot
      let v := slot60 (d.idAt k b2) slot2
      let d := (d.setPos k b2 slot2 st).setPos k b slot 0
      let d := (d.cachePut k (d.slotKey b2 v) (v % 65536) (.bucket b2 slot2)).clsCnt k 16
      d.putStep k { s with flip := .place b slot true false, ready := false, lines := s.lines.take 2, gens := [] }
    | .park =>
      let x := d.dray k
      let g := (genOf x (s.lines.getD 0 0), genOf x (s.lines.getD 1 (s.lines.getD 0 0)))
      (((d.putOvf k s.idx { e with parked := some g }).dropStep k s.idx).clsCnt k 17).irq .CLS_INT_STAT 5
    | .scan => d

/-- Flips of Dray k (R331 step 1). -/
def Dev.flips (d : Dev) (n k : Nat) : Dev :=
  ((d.dray k).steps.filter (·.ready)).foldl (fun d s => d.flipStep k n s) d

/-- Age one bucket slot (R332). -/
def Dev.ageSlot (d : Dev) (k b s : Nat) : Dev :=
  let st := posOf (d.dray k) b s
  if st == 3 then d.setPos k b s 2
  else if st == 2 then
    let key := d.slotKey b (slot60 (d.idAt k b) s)
    (((d.setPos k b s 0).cacheDrop k key).lcountDown k key).clsCnt k 14
  else d

/-- Age one LEARNED overflow entry (R332). -/
def Dev.ageOvf (d : Dev) (k i : Nat) : Dev :=
  match tget (d.dray k).ovf i with
  | some e =>
    match e.kind, e.key with
    | .learned, .exact key =>
      if e.seen then d.putOvf k i { e with seen := false }
      else (((d.freeOvf k i).cacheDrop k key).lcountDown k key).clsCnt k 14
    | _, _ => d
  | none => d

/-- The aging visit of Dray k at the boundary that starts beat n (R332). -/
def Dev.age (d : Dev) (n k : Nat) : Dev :=
  let p := d.fld .CLS_AGE [] 9 0
  if p == 0 || n % p != 0 then d else
  let m := n / p
  let d := forEach 4 d fun d s => d.ageSlot k (m % 2 ^ 20) s
  if m % 64 == 0 then d.ageOvf k (2048 + m / 64 % 14336) else d

/-- A new LEARNED overflow entry, seen (R328). -/
def Dev.newLearned (d : Dev) (k i key coach : Nat) : Dev :=
  ((d.putOvf k i ⟨.exact key, .learned, coach, true, none⟩).lcountUp k key).cachePut k key coach (.overflow i)

/-- Where a key stands in a bucket, by the learn cache: line id, slot and coach (R317, R328). -/
def Dev.cachedSlot (d : Dev) (k key : Nat) : Option (Nat × Nat × Nat) :=
  match tget (d.dray k).cache (d.emBucket key 0 % 65536) with
  | some l => if l.key == key then (match l.loc with | .bucket b s => some (b, s, l.coach) | .overflow _ => none) else none
  | none => none

/-- A move is damped: a record of the key is still in force in beat n (R328). -/
def damped (x : ClsDray) (key n : Nat) : Bool := x.moves.any fun m => m.2.key == key && n < m.2.release

/-- A key that is not known (R328). -/
def Dev.learnNew (d : Dev) (k p key coach : Nat) : Dev :=
  if d.fld .CLS_LIMIT [p] 22 0 ≤ d.rd .CLS_LCOUNT [p] then (d.clsCnt k 11).irq .CLS_INT_STAT 2
  else match freeLearned (d.dray k) with
    | none => (d.clsCnt k 12).irq .CLS_INT_STAT 3
    | some i => (d.newLearned k i key coach).clsCnt k 7

/-- Resolve a standing learning event at the boundary that starts beat n (R328). -/
def Dev.learnOne (d : Dev) (n : Nat) (e : LearnEvent) : Dev :=
  let k := e.cport / 8
  let key := e.key
  let x := d.dray k
  if !d.clsOn k then d
  else if (ovfHost x (.exact key)).isSome then d.clsCnt k 13
  else
  let slot := d.cachedSlot k key
  let st := match slot with | some (b, s, _) => posOf x b s | none => 0
  if st == 1 then d.clsCnt k 13 else
  match ovfLearned x (.exact key) with
  | some (i, o) =>
    if o.coach == e.coach then (d.putOvf k i { o with seen := true }).cachePut k key e.coach (.overflow i)
    else if damped x key n then (d.clsCnt k 10).irq .CLS_INT_STAT 4
    else
      (((d.putOvf k i { o with coach := e.coach, seen := true }).cachePut k key e.coach (.overflow i)).moveRecord k key n).clsCnt k 8
  | none =>
    match slot with
    | some (b, s, c) =>
      if 2 ≤ st then
        if c == e.coach then (d.setPos k b s 3).cachePut k key e.coach (.bucket b s)
        else if damped x key n then (d.clsCnt k 10).irq .CLS_INT_STAT 4
        else match freeLearned x with
          | none => (d.clsCnt k 12).irq .CLS_INT_STAT 3
          | some i => ((d.newLearned k i key e.coach).moveRecord k key n).clsCnt k 8
      else d.learnNew k e.cport key e.coach
    | none => d.learnNew k e.cport key e.coach

/-- The order of R327. -/
def learnBefore (a b : LearnEvent) : Bool :=
  a.lport < b.lport || (a.lport == b.lport && (a.beat < b.beat || (a.beat == b.beat && a.index < b.index)))

/-- Place an event in that order. -/
def placeEvent (e : LearnEvent) : List LearnEvent → List LearnEvent
  | [] => [e]
  | f :: r => if learnBefore e f then e :: f :: r else f :: placeEvent e r

/-- Resolve events in order; a later event of a key merges or conflicts (R327). -/
def Dev.learnAll (n : Nat) : List LearnEvent → List LearnEvent → Dev → Dev
  | [], _, d => d
  | e :: r, seen, d =>
    match seen.find? fun f => f.key == e.key && f.cport / 8 == e.cport / 8 with
    | some f => Dev.learnAll n r seen (if f.coach == e.coach then d else d.clsCnt (e.cport / 8) 9)
    | none => Dev.learnAll n r (e :: seen) (d.learnOne n e)

/-- The learning events of the beat that ends, but for those of a Dray whose channels are disabled (R331 step 3, R351). -/
def Dev.learnBeat (d : Dev) (n : Nat) : Dev :=
  let l := (d.ports.learn.filter fun e => d.clsOn (e.cport / 8)).foldl (fun l e => placeEvent e l) []
  Dev.learnAll n l [] { d with ports := { d.ports with learn := [] } }

/-- Generation tags and abandoned steps, those whose overflow entry changed among them: `old` is the state before the boundary,
`flipped` the steps that flipped (R317, R324, R325). -/
def genStep (old x : ClsDray) (flipped : List Nat) : ClsDray :=
  let chg := (List.zip (List.range old.pos.length) old.pos).filterMap fun e => if tget x.pos e.2.1 == some e.2.2 then none else some (e.2.1 / 4)
  let add := x.pos.filterMap fun e => if tget old.pos e.1 == some e.2 then none else some (e.1 / 4)
  let ids := (chg ++ add).eraseDups
  let x := { x with gen := ids.foldl (fun g id => tputN g id ((tgetD g id 0 + 1) % 256)) x.gen }
  let same := fun (s : MigStep) => match tget x.ovf s.idx with
    | some e => e.key == s.entry.key && e.kind == s.entry.kind && e.coach == s.entry.coach
    | none => false
  let steps := x.steps.filterMap fun s =>
    if !same s then none
    else if flipped.contains s.idx then some { s with gens := s.lines.map fun id => (id, genOf x id) }
    else if s.gens.all fun g => genOf x g.1 == g.2 then some s
    else none
  { x with steps := steps }

/-- Step 2 of R40 for the tables: flips, aging, learning (R331). -/
def Dev.clsBoundary (d : Dev) (n : Nat) : Dev :=
  ((forEach 4 d fun d k => d.flips n k) |> fun d => forEach 4 d fun d k => d.age n k).learnBeat n

/-- Tags and abandoned steps after step 4 of R40, against the state `old` before the boundary. -/
def Dev.clsFinish (d : Dev) (old : Dev) : Dev :=
  forEach 4 d fun d k =>
    d.setDray k (genStep (old.dray k) (d.dray k) (((old.dray k).steps.filter (·.ready)).map (·.idx)))

/-! Host requests and flush. -/

/-- One request of Dray k becomes a HOST entry (R322). -/
def Dev.hostRequest (d : Dev) (k op : Nat) (key : OvfKey) (coach : Nat) : Dev :=
  let x := d.dray k
  let i := match ovfHost x key with | some (i, _) => some i | none => freeHost x
  match i with
  | none => d
  | some i =>
    let d := d.putOvf k i ⟨key, if op == 1 then .hostInsert else .hostTomb, if op == 1 then coach else 0, false, none⟩
    match key with
    | .exact q => if op == 1 then d.cachePut k q coach (.overflow i) else d.cacheDrop k q
    | _ => d

/-- Set the Bloom bits of an inserted prefix in Dray k (R322). -/
def Dev.bloomSet (d : Dev) (v6 : Bool) (len v k : Nat) : Dev :=
  let x := d.dray k
  let i := d.bloomIx v6 v
  d.setDray k { x with bloom := tset (tset x.bloom (bloomKey v6 len i.1) 1) (bloomKey v6 len i.2) 1 }

/-- Exact-match request table entry e at its apply boundary (R322, R346); the entry then reads zero (R320). -/
def Dev.emRequest (d : Dev) (e : Nat) : Dev :=
  let w := fun i => d.rd .EMR_WORD [e, i]
  let op := bits (w 2) 31 30
  let p := bits (w 2) 20 16
  let d' := if op == 1 || op == 2 then
      d.hostRequest (p / 8) op (.exact (emKey (p % 8) (bits (w 1) 27 16) (w 0 + bits (w 1) 15 0 * 2 ^ 32))) (bits (w 2) 15 0)
    else d
  forEach 3 d' fun d i => d.wr .EMR_WORD [e, i] 0

/-- Data request table entry e at its apply boundary (R322, R346). -/
def Dev.dataRequest (d : Dev) (e : Nat) : Dev :=
  let w := fun i => d.rd .DRQ_WORD [e, i]
  let op := bits (w 2) 31 30
  let v6 := bit (w 2) 29
  let len := bits (w 2) 28 22
  let v := if v6 then w 0 + w 1 * 2 ^ 32 else w 0
  let d' := if op == 1 || op == 2 then
      forEach 4 d fun d k =>
        let d := d.hostRequest k op (prefixKey v6 len v) (bits (w 2) 15 0)
        if op == 1 then d.bloomSet v6 len v k else d
    else d
  forEach 3 d' fun d i => d.wr .DRQ_WORD [e, i] 0

/-- Flush Dray k (R333). -/
def Dev.flushDray (d : Dev) (k : Nat) : Dev :=
  let x := d.dray k
  let d := d.setDray k { x with pos := x.pos.filter fun p => p.2 == 1, ovf := x.ovf.filter fun e => isHost e.2,
                                cache := [], moves := [] }
  forEach 8 d fun d i => d.wr .CLS_LCOUNT [8 * k + i] 0

/-- Dray k loses its classification state with its power (R617). -/
def Dev.clearDray (d : Dev) (k : Nat) : Dev :=
  forEach 8 (d.setDray k .init) fun d i => d.wr .CLS_LCOUNT [8 * k + i] 0

end Sys2Proof.Machine
end

