-- ==== Sys2Proof/Machine/Frame.lean ====
section
/-! DEFINITION. The frame-mode protected frame: SecTAG, IV, AAD and cipher (R120-R131), and finding, checking and
rebuilding it at the receiver (R133-R139, R147). -/

namespace Sys2Proof.Machine

/-- Frame-mode fields of a coach (R203). -/
def Dev.tagForm (d : Dev) (c : Nat) : Nat := d.fld .CO_CTL [c] 25 24
def Dev.conf (d : Dev) (c : Nat) : Nat := d.fld .CO_CTL [c] 23 22
def Dev.vlanClear (d : Dev) (c : Nat) : Bool := d.flag .CO_CTL [c] 26
def Dev.rxEn (d : Dev) (c : Nat) : Bool := d.flag .CO_CTL [c] 30

/-- TX_SCI, RX_SCI and the short SCIs of a coach (R201). -/
def Dev.txSci (d : Dev) (c : Nat) : Nat := d.rd .CO_SCI [c, 0] + d.rd .CO_SCI [c, 1] * 2 ^ 32
def Dev.rxSci (d : Dev) (c : Nat) : Nat := d.rd .CO_SCI [c, 2] + d.rd .CO_SCI [c, 3] * 2 ^ 32
def Dev.txSsci (d : Dev) (c : Nat) : Nat := d.rd .CO_SCI [c, 4]
def Dev.rxSsci (d : Dev) (c : Nat) : Nat := d.rd .CO_SCI [c, 5]

/-- SecTAG length of a form (R121). -/
def tagLen (form : Nat) : Nat := if form == 1 then 16 else if form == 2 then 12 else 8

/-- V: how much longer the protected frame is (R120). -/
def overhead (form : Nat) : Nat := tagLen form + 16

/-- Bytes of clear tags after the addresses (R129). -/
def clearTags (body : Bytes) : Nat :=
  if isTpid (field body 12 2) then (if isTpid (field body 16 2) then 8 else 4) else 0

/-- Clear part of a secure data by CONF (R128). -/
def clearPart (conf n : Nat) : Nat := if conf == 3 then n else min n (if conf == 1 then 30 else if conf == 2 then 50 else 0)

/-- The IV (R130). -/
def ivOf (ssci pn : Nat) (salt : BitVec 96) : BitVec 96 := BitVec.ofNat 96 (ssci * 2 ^ 64 + pn) ^^^ salt

/-- The SecTAG (R122-R125). -/
def secTag (form conf sci stage pn secLen : Nat) : Bytes :=
  let e := if conf == 3 then 0 else 12
  let tci := (if form == 1 then 32 else 0) + e + stage % 4
  let sl := (if form == 2 then 128 else 0) + (if secLen < 48 then secLen else 0)
  [0x88#8, 0xE5#8, BitVec.ofNat 8 tci, BitVec.ofNat 8 sl] ++ bytesOfNat 4 (pn % 2 ^ 32) ++
  (if form == 1 then bytesOfNat 8 sci else if form == 2 then bytesOfNat 4 (stage / 4 * 4) else [])

/-- Protect a client frame under coach c with packet number `pn` and key slot `s` (R120, R131). -/
def Dev.protect (d : Dev) (c pn : Nat) (s : Slot) (frame : Bytes) : Bytes :=
  let body := frame.take (frame.length - 4)
  let off := 12 + (if d.vlanClear c then clearTags body else 0)
  let sec := body.drop off
  let n := clearPart (d.conf c) sec.length
  let aad := body.take off ++ secTag (d.tagForm c) (d.conf c) (d.txSci c) s.stage pn sec.length ++ sec.take n
  let iv := ivOf (d.txSsci c) pn s.salt
  let ct := ctrXor s.key iv (sec.drop n)
  let m := aad ++ ct ++ gcmTag s.key iv aad ct
  m ++ fcsOf m

/-- Where the SecTAG of a received frame lies (R133). -/
def findTag (body : Bytes) : Option Nat :=
  let t := fun i => field body i 2
  if t 12 == 0x88E5 then some 12
  else if isTpid (t 12) && t 16 == 0x88E5 then some 16
  else if isTpid (t 12) && isTpid (t 16) && t 20 == 0x88E5 then some 20
  else none

/-- A received SecTAG, field by field (R122-R125). -/
structure RxTag where
  at_  : Nat
  tci  : Nat
  xw   : Bool
  sl   : Nat
  slRsv : Bool
  pn   : Nat
  sci  : Nat
  ext  : Nat
  /-- Its length. -/
  len  : Nat
  deriving DecidableEq, Repr

/-- The bits of TCI/AN (R123). -/
def RxTag.es (t : RxTag) : Bool := bit t.tci 6
def RxTag.sc (t : RxTag) : Bool := bit t.tci 5
def RxTag.an (t : RxTag) : Nat := t.tci % 4

/-- Read the SecTAG at offset i. -/
def readTag (body : Bytes) (i : Nat) : RxTag :=
  let tci := field body (i + 2) 1
  let sl := field body (i + 3) 1
  { at_ := i, tci := tci, xw := bit sl 7, sl := sl % 64, slRsv := bit sl 6, pn := field body (i + 4) 4,
    sci := field body (i + 8) 8, ext := field body (i + 8) 4,
    len := if bit tci 5 then 16 else if bit sl 7 then 12 else 8 }

/-- Malformed by the SecTAG's own bytes (R134, R146). -/
def RxTag.badEarly (t : RxTag) : Bool :=
  bit t.tci 7 || bit t.tci 4 || (t.es && t.sc) || t.slRsv || (t.xw && t.sc)

/-- Malformed by a length known only at the end of the frame (R134, R146). -/
def RxTag.badLate (t : RxTag) (body : Bytes) : Bool :=
  let have_ := t.at_ + t.len + 16
  let n := body.length - have_
  body.length < have_ || (t.sl != 0 && t.sl != n) || (t.sl == 0 && n < 48)

/-- The coach a SecTAG selects on line port n; 0 selects none (R135). -/
def Dev.rxCoach (d : Dev) (n : Nat) (t : RxTag) : Nat := if t.sc then t.sci % 2 ^ 16 else d.fld .RXPORT_CTL [n] 15 0

/-- The coach receives the frame (R136). -/
def Dev.coachReceives (d : Dev) (n c : Nat) (t : RxTag) (sa : Nat) : Bool :=
  c != 0 && d.rxEn c && d.fld .CO_CTL [c] 20 16 == n &&
  (if t.sc then t.sci == d.rxSci c else if t.es then sa * 2 ^ 16 + 1 == d.rxSci c else true)

/-- The SecTAG disagrees with the coach's settings; one with ES and XW is of form EXT (R137; log entry 82). -/
def Dev.settingsFail (d : Dev) (c : Nat) (t : RxTag) : Bool :=
  let form := if t.sc then 1 else if t.xw then 2 else 0
  let e := d.conf c != 3
  form != d.tagForm c || bit t.tci 3 != e || bit t.tci 2 != e || (12 < t.at_ && !d.vlanClear c) ||
  (t.xw && t.ext % 4 != 0)

/-- Full stage of the extension word (R125). -/
def RxTag.stage (t : RxTag) : Nat := t.ext / 4 * 4 + t.an

/-- The slot a coach's frame uses: of its own two slots, or pipe k's probe slot; the flag says it is the probe (R138,
R224). -/
def Dev.rxSlot (d : Dev) (k c : Nat) (full : Option Nat) (an : Nat) : Option (Slot × Bool) :=
  let x := d.co c
  let ok := fun (s : Slot) => s.stage % 4 == an && (match full with | some q => s.stage == q | none => true) && !s.rxBad
  match [x.slotA, x.slotB].findSome? fun s => s.bind fun v => if ok v then some v else none with
  | some v => some (v, false)
  | none =>
    match tget d.coach.probe k with
    | some p => if p.coach == c && full == some p.stage then p.slot.map (·, true) else none
    | none => none

/-- Lowest acceptable PN (R139). -/
def lowestPn (nextPn win : Nat) : Nat := if win < nextPn then nextPn - win else 1

/-- The recovered PN (R139). -/
def recoverPn (lowest low : Nat) : Nat :=
  if lowest % 2 ^ 32 ≤ low then lowest / 2 ^ 32 * 2 ^ 32 + low else (lowest / 2 ^ 32 + 1) * 2 ^ 32 + low

/-- Zero bytes up to 60 and a new FCS (R147). -/
def finishFrame (m : Bytes) : Bytes :=
  let m := m ++ List.replicate (60 - m.length) 0#8
  m ++ fcsOf m

/-- Length of the rebuilt frame, reckoned from the received length (R384). -/
def rebuiltLen (len form : Nat) : Nat := max 64 (len - overhead form)

/-- Decrypt a received frame under a slot: the rebuilt frame and whether its tag verifies (R131, R147). -/
def Dev.openFrame (d : Dev) (c pn : Nat) (s : Slot) (t : RxTag) (body : Bytes) : Bytes × Bool :=
  let sec := (body.drop (t.at_ + t.len)).take (body.length - 16 - (t.at_ + t.len))
  let n := clearPart (d.conf c) sec.length
  let aad := body.take (t.at_ + t.len + n)
  let iv := ivOf (d.rxSsci c) pn s.salt
  let ct := sec.drop n
  (finishFrame (body.take t.at_ ++ sec.take n ++ ctrXor s.key iv ct),
   gcmTag s.key iv aad ct == body.drop (body.length - 16))

/-- Traffic class of a frame the Inbound pipe delivers to client port p (R687). -/
def Dev.inTc (d : Dev) (p : Nat) (f : Bytes) : Nat := d.unitTc p none (pcpOf f)

/-- Traffic class of a frame-mode relay unit (R687). -/
def relayTc (f : Bytes) : Nat := (pcpOf f).getD 0

/-- VID under which a delivered frame is learned on client port p (R326). -/
def Dev.learnVid (d : Dev) (p : Nat) (f : Bytes) : Nat := if vidOf f == 0 then d.clsPort p 11 0 else vidOf f

/-- Client port and key of the learning event a delivered frame raises, if it may raise one (R326). -/
def Dev.learnKey (d : Dev) (p : Nat) (f : Bytes) : Option (Nat × Nat) :=
  let sa := field f 6 6
  if d.flag .CLS_PORT [p] 31 && !bit sa 40 && sa != 0 then some (p, emKey (portIx p) (d.learnVid p f) sa) else none

end Sys2Proof.Machine
end

