-- ==== Sys2Proof/Machine/Outbound.lean ====
section
/-! DEFINITION. The Outbound pipe (R87-R92, R95-R97), relay re-encryption (R100-R103) and the pushes of R688. -/

namespace Sys2Proof.Machine

/-- Units and bytes a pipe admits in one beat (R95, R618). -/
def Dev.pipeLimit (d : Dev) : Nat × Nat := if d.power.throttle then (600, 76800) else (1200, 153600)

/-- Exchange the totals of Outbound pipe k with those it has charged ahead to the next beat, at 16 + k (R189). -/
def Dev.swapCharge (d : Dev) (k : Nat) : Dev :=
  let ex := fun (t : Tab Nat) => tputN (tputN t k (tgetD t (16 + k) 0)) (16 + k) (tgetD t k 0)
  { d with ports := { d.ports with units := ex d.ports.units, bytes := ex d.ports.bytes } }

/-- Charge a unit to pipe `k`, Outbound d or 4 + Inbound d, when both totals allow it (R95, R96, R113). -/
def Dev.pipeAdmit (d : Dev) (k units len : Nat) : Option Dev :=
  let u := tgetD d.ports.units k 0 + units
  let b := tgetD d.ports.bytes k 0 + len
  if u ≤ d.pipeLimit.1 && b ≤ d.pipeLimit.2 then
    let d := { d with ports := { d.ports with units := tputN d.ports.units k u, bytes := tputN d.ports.bytes k b } }
    let r : Reg := if k < 4 then .DRY_OB_PEAK else .DRY_IB_PEAK
    some ((d.peak r [k % 4] 10 0 u).peak r [k % 4] 28 11 b)
  else none

/-- A unit dropped under R96; PIPE_OVF is set in the Dray of its ingress port (R97; log entry 51). -/
def Dev.pipeDrop (d : Dev) (p : Nat) : Dev :=
  ((d.cnt p 11).irq .DRY_INT_STAT 2 [drayOf p]).pmcEvent (4 + drayOf p) 3 (some p)

/-- The counter of step 1 that drops a frame; 0 lets it pass (R88). -/
def checkFrame (len : Nat) (f : Bytes) : Nat :=
  if len < 64 then 4 else if 9216 < len then 5
  else if fcsOf (f.take (f.length - 4)) != f.drop (f.length - 4) then 6 else 0

/-- Identity of a unit (R26, R183). -/
def sameUnit (u v : Pkt) : Bool := u.ingress == v.ingress && u.beat == v.beat && u.index == v.index && u.offset == v.offset

/-- Order by port and arrival index (R96). -/
def arrBefore (a b : Arrival) : Bool := a.port < b.port || (a.port == b.port && a.index < b.index)

/-- Place an arrival in that order. -/
def placeArr (a : Arrival) : List Arrival → List Arrival
  | [] => [a]
  | b :: r => if arrBefore a b then a :: b :: r else b :: placeArr a r

/-- Arrivals of a beat that satisfy `f`, in that order. -/
def Dev.arrivalsOf (d : Dev) (beat : Nat) (f : Arrival → Bool) : List Arrival :=
  (d.ports.arrivals.filter fun a => a.beat == beat && !a.held && f a).foldl (fun l a => placeArr a l) []

/-- Mark an arrival as taken. -/
def Dev.takeArrival (d : Dev) (a : Arrival) : Dev :=
  { d with ports := { d.ports with arrivals := d.ports.arrivals.map fun b => if b == a then { b with taken := true } else b } }

/-- The unit an arrival becomes in the Loft (R31, R32). -/
def unitOf (a : Arrival) (relay : Nat) (egress tc coach pipe now : Nat) (bytes : Bytes) (held : Nat) : Pkt :=
  { ingress := a.port, beat := a.beat, index := a.index, offset := a.offset, rts := a.rts, eave := a.beat * 1200 + a.offset,
    bytes := bytes,
    egress := egress, tc := tc, coach := coach, due := (a.beat + a.lat - 1 + relay) * 1200 + a.offset, held := held,
    cells := [], pipe := pipe, proc := now, pushAt := 0, wrDiv := 0, wrStep := 0, wrFrom := 0, split := 0, wrNext := 0,
    notBefore := 0, read := false,
    planned := false, actual := false, ghost := false }

/-- A unit whose bytes stream through a cipher at the pace of a port of rate r: it is pushed 96 CCLK after byte y of its
frame or superframe, whose cipher start is CCLK c, and its bytes follow at line pace (R142, R183, R688). -/
def streamed (u : Pkt) (r c y : Nat) : Pkt :=
  { u with pushAt := c + 48 * y / (5 * r) + 96, wrDiv := 5 * r, wrStep := 48, wrFrom := 5 * r * (c + 96) + 48 * y,
           split := u.held, wrNext := 0 }

/-- Add a unit to the units pipe `k` is still to push (R688). -/
def Dev.addPush (d : Dev) (k : Nat) (u : Pkt) : Dev :=
  { d with loft := { d.loft with toPush := tset d.loft.toPush k (tgetD d.loft.toPush k [] ++ [u]) } }

/-- CCLK of the next client push of Outbound pipe k in the beat under way (R688). -/
def Dev.nextPush (d : Dev) (k : Nat) : Nat :=
  (tgetD d.loft.toPush k []).foldl (fun m u => max m (u.pushAt + 1)) (max (d.beat * 1200) (tgetD d.loft.relayNext (4 + k) 0))

/-- A line port that an Outbound direct unit may leave on (R85). -/
def Dev.obRoute (d : Dev) (k p : Nat) : Bool :=
  isLine p && d.exists_ p && drayOf p == k && !d.relayRole p && !d.thatchMode p

/-- A line port that a relay unit may leave on (R85). -/
def Dev.relayRoute (d : Dev) (p : Nat) : Bool := isLine p && d.exists_ p && d.relayRole p

/-- Egress line port of a coach (R205). -/
def Dev.egrPort (d : Dev) (c : Nat) : Nat := 32 + d.fld .CO_ROUTE [c] 4 0

/-- A PROTECT unit dropped because its coach does not transmit (R209, R225). -/
def Dev.chocked (d : Dev) (c : Nat) : Dev := d.coCount c 8

/-- Give the PN and encrypt a frame under coach c (R132, R209, R225, R236). -/
def Dev.encrypt (d : Dev) (c : Nat) (f : Bytes) : Dev × Option Bytes :=
  if !d.canSend c then (d.chocked c, none) else
  let r := d.takePn c
  match r.2, slotFor (r.1.co c) (r.1.co c).stage with
  | some pn, some s =>
    let m := r.1.protect c pn s f
    ((r.1.coWide c 0 1).coWide c 1 m.length, some m)
  | _, _ => (r.1.chocked c, none)

/-- Correct the message of unit u before encryption, with its planned departure (R461). -/
def Dev.ptpPlanned (d : Dev) (p : Nat) (u : Pkt) (f : Bytes) : Dev × Bytes × Bool :=
  let r := d.ptpCorrect p ⟨u.rts, fun n => d.txPlanned p u.due u.eave n⟩ f
  (r.1, if r.2.2 then refcs r.2.1 else r.2.1, r.2.2)

/-- Correct a message as it is handed to the PCS, with start CCLK `s` (R461). -/
def Dev.ptpAtStart (d : Dev) (s : Nat) (u : Pkt) : Dev × Pkt :=
  if !u.actual || u.ghost || u.bytes.length < u.held then (d, u) else
  let r := d.ptpCorrect u.egress ⟨u.rts, fun n => d.txActual u.egress s u.eave n⟩ u.bytes
  (r.1, { u with bytes := if r.2.2 then refcs r.2.1 else r.2.1, actual := false })

/-- Correct the unit under way on slot q, once all of its bytes are known (R461). -/
def Dev.ptpStarted (d : Dev) (q : Nat) : Dev :=
  match tget d.loft.tx q with
  | none => d
  | some x =>
    let r := d.ptpAtStart x.start x.pkt
    if r.2 == x.pkt then d else { r.1 with loft := { r.1.loft with tx := tset r.1.loft.tx q { x with pkt := r.2 } } }

/-- The delimiter of a carried frame (R166). -/
def delimiter (len tc : Nat) : Bytes :=
  let b := bytesOfNat 3 ((len * 8 + tc) * 128)
  b ++ [BitVec.ofNat 8 (crc8 b)]

/-- Length after encapsulation (R95). -/
def Dev.encapLen (d : Dev) (thatch : Bool) (c : Option Nat) (len : Nat) : Nat :=
  if thatch then len + 4 else match c with | some c => len + overhead (d.tagForm c) | none => len

/-- Steps 6 to 8 of R87 for a client unit after admission: the coach it is protected under, or none for CLEAR. -/
def Dev.obFinish (d : Dev) (a : Arrival) (u : Parsed) (c : Option Nat) (tc : Nat) : Dev :=
  let k := drayOf a.port
  let n := d.beat
  match d.boundLine a.port with
  | some p =>
    let d := if c.isNone then d.cnt a.port 14 else d
    let m := delimiter a.len tc ++ a.bytes
    let x := unitOf a 0 p tc (c.getD 0) k n m m.length
    d.addPush k { x with pushAt := d.nextPush k, actual := (ptpAt a.bytes).isSome }
  | none =>
    match c with
    | none =>
      let p := 32 + 8 * k + bits (d.ctl a.port) 26 24
      if !d.obRoute k p then d.routeDrop a.port else
      let x := unitOf a 0 p tc 0 k n a.bytes a.len
      d.addPush k { x with pushAt := d.nextPush k, actual := (ptpAt a.bytes).isSome }
    | some c =>
      let p := d.egrPort c
      if !d.obRoute k p then d.routeDrop a.port
      else if 9216 < a.len + overhead (d.tagForm c) then d.cnt a.port 8
      else
        let x := unitOf a 0 p tc c k n [] 0
        let r := if u.etype == 0 then (d, a.bytes, false) else d.ptpPlanned p x a.bytes
        let e := r.1.encrypt c r.2.1
        match e.2 with
        | none => e.1
        | some m => e.1.addPush k { x with bytes := m, held := m.length, pushAt := e.1.nextPush k, planned := r.2.2 }

/-- Admission of a client unit, then the rest of its processing (R95, R96). -/
def Dev.obAdmit (d : Dev) (a : Arrival) (u : Parsed) (c : Option Nat) (tc : Nat) : Dev :=
  let k := drayOf a.port
  match d.pipeAdmit k 1 (d.encapLen (d.boundLine a.port).isSome c a.len) with
  | none => d.pipeDrop a.port
  | some d => (d.pmcEvent (4 + k) 1 (some a.port)).obFinish a u c tc

/-- Step 4 and on for a unit that is protected under coach c (R89, R430). -/
def Dev.obProtect (d : Dev) (a : Arrival) (u : Parsed) (c tc : Nat) : Dev :=
  let r := d.police c (a.beat * 1200 + a.offset) a.len
  match r.2 with
  | .red => r.1.coCount c 10
  | .yellow => (r.1.coCount c 9).obAdmit a u (some c) tc
  | .green => r.1.obAdmit a u (some c) tc

/-- The Outbound pipe processes one client unit (R87). -/
def Dev.obUnit (d : Dev) (a : Arrival) : Dev :=
  let d := d.takeArrival a
  let w := checkFrame a.len a.bytes
  if w != 0 then d.cnt a.port w
  else if field a.bytes 12 2 == 0x8808 then d.cnt a.port 7
  else
  let u := parse a.bytes (d.clsPort a.port 11 0)
  let r := d.classifyUnit a.port u
  let d := r.1
  let tc := d.unitTc a.port r.2.2 u.pcp
  match r.2.1 with
  | .protect c => d.obProtect a u c tc
  | .clear => d.obAdmit a u none tc
  | .drop => d.cnt a.port 9
  | .budget => d
  | .probeCap => d
  | .miss =>
    let act := bits (d.ctl a.port) 30 29
    if act == 1 then d.obAdmit a u none tc
    else if act == 2 then d.obProtect a u (bits (d.ctl a.port) 15 0) tc
    else d.cnt a.port 9

/-- Take a unit out of relay queue k; its cells become free at `at_ j` (R390). -/
def Dev.relayPop (d : Dev) (k : Nat) (u : Pkt) (at_ : Nat → Nat) : Dev :=
  match (d.relayQ k).find? (sameUnit u) with
  | none => d
  | some v => (d.setRelayQ k ((d.relayQ k).filter fun x => !sameUnit u x)).holdCells (512 + k) v.cells at_

/-- Change a unit wherever it stands: still to push, queued, or under way. -/
def Dev.modUnit (d : Dev) (u : Pkt) (f : Pkt → Pkt) : Dev :=
  let g := fun (v : Pkt) => if sameUnit u v then f v else v
  { d with loft := { d.loft with
      toPush := d.loft.toPush.map fun (e : Nat × List Pkt) => (e.1, if e.1 < 8 then e.2.map g else e.2),
      relay := d.loft.relay.map fun (e : Nat × List Pkt) => (e.1, e.2.map g),
      queues := d.loft.queues.map fun (e : Nat × List QEntry) =>
        (e.1, e.2.map fun x => match x with | .unit v => .unit (g v) | y => y),
      tx := d.loft.tx.map fun (e : Nat × TxUnit) => (e.1, { e.2 with pkt := g e.2.pkt }) } }

/-- Drop-remainder for a unit that has not started: removed from wherever it stands (R402). -/
def Dev.dropUnit (d : Dev) (u : Pkt) : Dev :=
  let d := { d with loft := { d.loft with
    toPush := (d.loft.toPush.map fun (e : Nat × List Pkt) =>
      (e.1, if e.1 < 8 then e.2.filter fun v => !sameUnit u v else e.2)).filter fun (e : Nat × List Pkt) => !e.2.isEmpty } }
  let d := d.loft.relay.foldl (fun (d : Dev) (e : Nat × List Pkt) =>
    if e.2.any (sameUnit u) then d.relayPop e.1 u fun _ => d.now + 1 else d) d
  d.loft.queues.foldl (fun (d : Dev) (e : Nat × List QEntry) =>
    match (unitsOf e.2).find? (sameUnit u) with
    | some v => (d.removeUnit e.1 v).pmcEvent 10 5 (some (e.1 / 8))
    | none => d) d

/-- The unit is still to push or stands in a queue. -/
def Dev.unitWaits (d : Dev) (u : Pkt) : Bool :=
  d.loft.toPush.any (fun e => e.1 < 8 && e.2.any (sameUnit u)) || d.loft.relay.any (fun e => e.2.any (sameUnit u)) ||
  d.loft.queues.any fun e => (unitsOf e.2).any (sameUnit u)

end Sys2Proof.Machine
end

