-- ==== Sys2Proof/Machine/Superframe.lean ====
section
/-! DEFINITION. The superframe: header, cipher and payload stream (R157-R170, R182), and the checks a received one meets
before its tag (R181). -/

namespace Sys2Proof.Machine

/-- Control word of a Thatch port (R197). -/
def Dev.thpCoach (d : Dev) (n : Nat) : Nat := d.fld .THP_CTL [n] 15 0

/-- CCLK from byte 0 of a superframe to byte y on a port of rate r, rounded down; y may lie before byte 0 (R183). -/
def bytePos (r : Nat) (y : Int) : Int := (48 * y) / (5 * r : Nat)

/-- T_sf (R186). -/
def tSf (r : Nat) : Nat := lineCclk r sfBytes

/-- Bits LOS, LOL, LOF, LOM and PLM of a defect vector: RDI is sent for them (R195). -/
def rdiMask : Nat := 0b1111100

/-! The header. -/

/-- Header fields of a received superframe (R160, R163). -/
structure SfHdr where
  label : Nat
  flags : Nat
  coach : Nat
  stage : Nat
  seq   : Nat
  alarm : Nat
  /-- HCRC fits (R161). -/
  fits  : Bool
  isFaw : Bool
  deriving DecidableEq, Repr

/-- Read a header. -/
def readHdr (b : Bytes) : SfHdr :=
  { label := field b 8 1, flags := field b 9 1, coach := field b 10 2, stage := field b 12 4, seq := field b 16 8,
    alarm := field b 24 2, fits := 32 ≤ b.length && crc16 ((b.drop 8).take 22) == field b 30 2, isFaw := field b 0 8 == faw }

/-- ALARM bits of a header. -/
def SfHdr.ais (h : SfHdr) : Bool := bit h.alarm 15
def SfHdr.rdi (h : SfHdr) : Bool := bit h.alarm 14
def SfHdr.csf (h : SfHdr) : Bool := bit h.alarm 13

/-- FDP, payload and whether the tag verifies (R170). -/
def openSuperframe (key : BitVec 256) (iv : BitVec 96) (b : Bytes) : Nat × Bytes × Bool :=
  let ct := ((b ++ List.replicate (28 - b.length) 0#8).drop 26).take 2 ++ (b.drop 32).take payloadBytes
  let pt := ctrXor key iv ct
  (natOfBytes (pt.take 2), pt.drop 2, gcmTag key iv (b.take 26 ++ (b.drop 28).take 4) ct == b.drop 16416)

/-! The payload stream. -/

/-- Parse a payload from offset `off` on, in the middle of `item`: what it holds, and where the parser stands at its end
(R165-R168, R182). The fuel is more than any payload takes. -/
def pieces (pay : Bytes) : Nat → Nat → RxItem → List Piece × RxItem
  | 0, _, item => ([], item)
  | m + 1, off, item =>
    if payloadBytes ≤ off then ([], item) else
    match item with
    | .fdp => ([], .fdp)
    | .frame len b =>
      let whole := b ++ (pay.drop off).take (len - b.length)
      let off := off + (len - b.length)
      if whole.length < len then ([], .frame len whole)
      else
        let r := pieces pay m off (.delim [])
        (.closes len whole :: r.1, r.2)
    | .delim b =>
      let w := b ++ (pay.drop off).take (4 - b.length)
      let off := off + (4 - b.length)
      if w.length < 4 then ([], .delim w) else
      let v := natOfBytes w
      let len := v / 2 ^ 18
      if v == 0 then pieces pay m off (.delim [])
      else if len < 64 || 9216 < len || bits v 14 8 != 0 || crc8 (w.take 3) != v % 256 then ([.delimErr], .fdp)
      else
        let tc := bits v 17 15
        let body := (pay.drop off).take len
        if off + len ≤ payloadBytes then
          let r := pieces pay m (off + len) (.delim [])
          (.whole (32 + off) len tc body :: r.1, r.2)
        else ([.opens (32 + off) len tc body], .frame len body)

/-- The pieces of a superframe's payload, when the parser stands at `item` before it: after a void or failed position it
resumes at the FDP, taken modulo the payload's length (R182; log entry 81). -/
def parsePayload (item : RxItem) (fdp : Nat) (pay : Bytes) : List Piece × RxItem :=
  match item with
  | .fdp => pieces pay 8400 (fdp % payloadBytes) (.delim [])
  | x => pieces pay 8400 0 x

/-- Client frames that a superframe with these pieces carries: those whose last byte it holds (R169). -/
def carriedIn (l : List Piece) : Nat :=
  (l.filter fun p => match p with | .whole .. | .closes .. => true | _ => false).length

/-! Receiving. -/

/-- Line port n is a Thatch port in the settings in effect (R76, R200). -/
def Dev.isThatch (d : Dev) (n : Nat) : Bool := d.exists_ (32 + n) && d.thatchMode (32 + n)

/-- Count in word 4 + i of a Thatch port table entry (R200). -/
def Dev.thpCnt (d : Dev) (n i : Nat) : Dev := if d.isThatch n then d.count .THP_CNT [n, i] else d

/-- Cipher start of a position (R186). -/
def sfStart (a : Arrival) : Nat := (a.beat + 2) * 1200 + a.offset

/-- Verdict CCLK of a position (R186). -/
def sfVerdictAt (r : Nat) (a : Arrival) (voids : Bool) : Nat := sfStart a + (if voids then 0 else tSf r) + 96

/-- Outcome of the checks of R181 that come before the tag. -/
inductive SfCheck where
  | hdrErr | ais | plm | noSa | late | go
  deriving DecidableEq, Repr

/-- Lowest SEQ a position may have: NEXT_PN of its slot, and what the verdicts still to come make of it (R181). -/
def Dev.sfNext (d : Dev) (c : Nat) (s : Slot) : Nat :=
  (d.ports.sfs.filter fun v => v.ok && v.coach == c && v.stage == s.stage).foldl (fun m v => max m (v.seq + 1)) s.nextPn

/-- Checks 1 to 5 of R181. -/
def Dev.sfCheck (d : Dev) (n : Nat) (h : SfHdr) : SfCheck × Option (Slot × Bool) :=
  if !(h.fits && h.flags / 64 == h.stage % 4 && (h.seq != 0 || h.ais)) then (.hdrErr, none)
  else if h.ais then (.ais, none)
  else if !(h.label ≤ 1 && h.coach != 0 && d.rxEn h.coach && d.fld .CO_CTL [h.coach] 20 16 == n) then (.plm, none)
  else match d.rxSlot (n / 8) h.coach (some h.stage) (h.stage % 4) with
    | none => (.noSa, none)
    | some s => if h.seq < d.sfNext h.coach s.1 then (.late, none) else (.go, some s)

/-- The stream position a superframe leaves the parser at, and the client frames it carries, if it is processed in the
beat under way (R96, R181, R182). -/
def Dev.foreseeSf (d : Dev) (n : Nat) (item : RxItem) (a : Arrival) : RxItem × Nat :=
  let h := readHdr a.bytes
  match if a.void then (SfCheck.hdrErr, none) else d.sfCheck n h with
  | (.go, some s) =>
    let o := openSuperframe s.1.key (ivOf (d.rxSsci h.coach) h.seq s.1.salt) a.bytes
    let r := parsePayload item o.1 o.2.1
    (if o.2.2 then r.2 else .fdp, carriedIn r.1)
  | _ => (.fdp, 0)

end Sys2Proof.Machine
end

