-- ==== Sys2Proof/Machine/Inbound.lean ====
section
/-! DEFINITION. The port input stages (R23-R28, R88, R105, R489) and the Inbound pipe in frame mode (R93-R96, R133-R149):
cipher start, verdict, drop-remainder, learning and relay. -/

namespace Sys2Proof.Machine

/-- Count a unit that a port assigns (R119). -/
def Dev.rxCount (d : Dev) (p len : Nat) : Dev := (d.cnt p 0).cnt p 1 len

/-- MATCH of a unit's bytes as received (R486). -/
def matchOf (b : Bytes) : Nat := crc32 (b.take (b.length - 4)) % 1024

/-- A unit of the given bytes, whose eave point lies in quarter φ of the CCLK under way, as its port's input stage takes it: no
more of a frame is kept than the longest one has (R25, R26, R88). -/
def Dev.newArrival (d : Dev) (p phi len ord : Nat) (void : Bool) (unit : Bytes) : Arrival :=
  let bytes := if d.thatchMode p then unit else unit.take 9216
  { port := p, beat := d.beat, index := (d.port p).count, offset := d.clk.cclk, phi := phi, rts := d.stamps d.now phi,
    bytes := bytes, len := len, sum := matchOf unit, void := void, taken := false, lat := d.fld .BEAT_SCHED [] 4 0, ord := ord,
    held := d.follows }

/-- Add an arrival to the port's units of the beat; a void one is no unit and does not count (R26, R119, R180). -/
def Dev.addArrival (d : Dev) (a : Arrival) : Dev :=
  let d := { d with ports := { d.ports with arrivals := d.ports.arrivals ++ [a] } }
  if a.held then d else
  let d := d.setPort a.port { d.port a.port with count := (d.port a.port).count + 1 }
  if a.void then d else d.rxCount a.port a.len

/-- A frame crosses the eave of port p in quarter φ of the CCLK under way (R25, R27, R105). -/
def Dev.arrive (d : Dev) (p phi : Nat) (frame : Bytes) : Dev :=
  if d.preRun || d.still || 64 ≤ p || 4 ≤ phi || frame.isEmpty || !(d.assigns p || (d.follows && d.en p)) || d.thatchMode p then d
  else d.addArrival (d.newArrival p phi frame.length 0 false frame)

/-! Admission. -/

/-- The line arrivals of Dray k that are processed in the beat under way. -/
def Dev.ibArrivals (d : Dev) (k : Nat) : List Arrival :=
  if d.beat < 2 then [] else d.arrivalsOf (d.beat - 2) fun a => isLine a.port && drayOf a.port == k

/-- Client frames of a superframe that its pipe has admitted so far (R96). -/
def Dev.admittedIn (d : Dev) (a : Arrival) : Nat := (d.ports.admits.filter (· == (a.port, a.index))).length

/-- Client frames that superframe `a` carries: counted as they were admitted, or, while its processing is still to come,
as it will be parsed (R96, R169). -/
def Dev.carriedCount (d : Dev) (a : Arrival) : Nat :=
  if a.taken then d.admittedIn a else
  let ahead := (d.ibArrivals (drayOf a.port)).filter fun b => b.port == a.port && !b.taken && !arrBefore a b
  (ahead.foldl (fun (s : RxItem × Nat) b => d.foreseeSf (portNo a.port) s.1 b) ((d.thatch (portNo a.port)).rxItem, 0)).2

/-- Units and bytes admitted once an arrival has been decided; a void position and a frame that step 1 drops charge
nothing (R95, R96). -/
def Dev.ibStep (d : Dev) (t : Nat × Nat) (a : Arrival) : Nat × Nat :=
  if a.void then t
  else if d.thatchMode a.port then
    if t.2 + sfBytes ≤ d.pipeLimit.2 then (min (t.1 + d.carriedCount a) d.pipeLimit.1, t.2 + sfBytes) else t
  else if checkFrame a.len a.bytes == 0 && t.1 + 1 ≤ d.pipeLimit.1 && t.2 + a.len ≤ d.pipeLimit.2 then (t.1 + 1, t.2 + a.len)
  else t

/-- Units and bytes admitted before arrival `a`, in the order of R96. -/
def Dev.ibBefore (d : Dev) (a : Arrival) : Nat × Nat :=
  ((d.ibArrivals (drayOf a.port)).filter fun b => arrBefore b a).foldl d.ibStep (0, 0)

/-- A line unit is admitted by its Inbound pipe; of a superframe, its bytes (R96). -/
def Dev.ibAdmitted (d : Dev) (a : Arrival) : Bool :=
  let t := d.ibBefore a
  if d.thatchMode a.port then t.2 + sfBytes ≤ d.pipeLimit.2 else t.1 + 1 ≤ d.pipeLimit.1 && t.2 + a.len ≤ d.pipeLimit.2

/-- Add to the totals of Inbound pipe k, with their peaks (R113). -/
def Dev.ibAdd (d : Dev) (k units len : Nat) : Dev :=
  let u := tgetD d.ports.units (4 + k) 0 + units
  let b := tgetD d.ports.bytes (4 + k) 0 + len
  let d := { d with ports := { d.ports with units := tputN d.ports.units (4 + k) u, bytes := tputN d.ports.bytes (4 + k) b } }
  (d.peak .DRY_IB_PEAK [k] 10 0 (min 1200 u)).peak .DRY_IB_PEAK [k] 28 11 (min 153600 b)

/-- The Inbound pipe of Dray k works: on, or draining (R616). -/
def Dev.ibWorks (d : Dev) (k : Nat) : Bool :=
  (d.domain (ibDom k)).state == .on || (d.domain (ibDom k)).state == .draining

/-! Cipher start. -/

/-- A client port of the same Dray that an Inbound unit may be delivered to (R85). -/
def Dev.ibRoute (d : Dev) (k q : Nat) : Bool := q < 32 && drayOf q == k && d.exists_ q

/-- A frame without a SecTAG (R94). -/
def Dev.clearFrame (d : Dev) (a : Arrival) : Dev :=
  let k := drayOf a.port
  let w := d.ctl a.port
  if d.relayRole a.port || !bit w 27 then d.cnt a.port 12
  else if field a.bytes 12 2 == 0x8808 then d.cnt a.port 7
  else
    let q := 8 * k + bits w 26 24
    if !d.ibRoute k q then d.routeDrop a.port else
    let u := unitOf a 0 q (d.inTc q a.bytes) 0 (4 + k) d.beat a.bytes a.len
    d.addPush (4 + k) (streamed { u with actual := (ptpAt a.bytes).isSome } (d.rate a.port) d.now 0)

/-- The unit a frame verified under coach c becomes, or none where it has no place to go (R85, R103, R206). -/
def Dev.ibUnit (d : Dev) (a : Arrival) (c : Nat) (t : RxTag) (f : Bytes) : Option Pkt :=
  let k := drayOf a.port
  let n := max 64 (a.len - (t.len + 16))
  let place := fun (u : Pkt) => streamed u (d.rate a.port) d.now 0
  if d.relayRole a.port then
    let rc := d.fld .CO_ROUTE [c] 31 16
    if rc == 0 then none else
    let u := unitOf a 1 (d.egrPort rc) (relayTc f) rc 16 d.beat f n
    some { place u with notBefore := (a.beat + 3) * 1200 + a.offset }
  else
    let q := 8 * k + d.fld .CO_ROUTE [c] 10 8
    if !d.ibRoute k q then none else
    some { place (unitOf a 0 q (d.inTc q f) c (4 + k) d.beat f n) with actual := (ptpAt f).isSome }

/-- What the checks that need no replay state give for a frame of coach c (R137, R138, R146, R148). -/
def Dev.ibResult (d : Dev) (c : Nat) (t : RxTag) (body : Bytes) (slot : Option (Slot × Bool)) : RxResult :=
  if t.badLate body then .badTag
  else if d.settingsFail c t then .inBadTag
  else if slot.isNone then .inNoSa else .ok

/-- Count in the port receive table entry of line port n, when it is a frame-mode port (R76, R156). -/
def Dev.rxPortCnt (d : Dev) (r : Reg) (n : Nat) : Dev :=
  if d.exists_ (32 + n) && !d.thatchMode (32 + n) then d.count r [n] else d

/-- The verdict of a frame (R143): its CCLK, and what its cipher run found. A frame without a place to go is dropped here,
whatever its verdict will be, unless it is a MAC control frame (R85; log entries 64 and 76). One whose plaintext is not known
waits for its verdict in the class that zero bytes give (log entry 80). -/
def Dev.ibVerdict (d : Dev) (a : Arrival) (c : Nat) (t : RxTag) (body : Bytes) : Dev :=
  let k := drayOf a.port
  let x := d.co c
  let full := if t.xw then some t.stage else none
  let slot := d.rxSlot k c full t.an
  let res := d.ibResult c t body slot
  let win := d.fld .CO_CTL [c] 10 0
  let s := (slot.map (·.1)).getD (freshSlot 0 0 0)
  let pn := recoverPn (lowestPn s.nextPn win) t.pn
  let o := if res == RxResult.ok then d.openFrame c pn s t body else (List.replicate (max 64 (a.len - (t.len + 16))) 0#8, false)
  let mac := field o.1 12 2 == 0x8808
  let u := d.ibUnit a c t o.1
  let asks := match full, res with
    | some q, .inNoSa => if d.probeWanted k c q && !(slotFor x q).isSome then some q else none
    | _, _ => none
  let mac := mac && res == RxResult.ok
  let d := match u with
    | some v => if mac then d else d.addPush (4 + k) v
    | none => if mac then d else d.routeDrop a.port
  let v : PendingVerdict :=
      { port := a.port, at_ := d.now + lineCclk (d.rate a.port) a.len + 96, beat := a.beat, index := a.index, result := res,
        tagOk := o.2, coach := c, stage := s.stage, probe := (slot.map (·.2)).getD false, pnLow := t.pn, pn := pn,
        replayEn := d.flag .CO_CTL [c] 27, replayWin := win, octets := o.1.length, macCtl := mac, route := u.isNone,
        relay := d.relayRole a.port,
        learn := if d.relayRole a.port then none else match u with | some v => d.learnKey v.egress o.1 | none => none,
        probeReq := asks }
  { d with ports := { d.ports with verdicts := d.ports.verdicts ++ [v] } }

/-- A frame with a SecTAG (R134-R136). -/
def Dev.taggedFrame (d : Dev) (a : Arrival) (body : Bytes) (i : Nat) : Dev :=
  let n := portNo a.port
  let t := readTag body i
  let c := d.rxCoach n t
  if t.badEarly then d.rxPortCnt .RXPORT_BAD_TAG n
  else if !d.coachReceives n c t (field body 6 6) then
    d.rxPortCnt (if t.badLate body then .RXPORT_BAD_TAG else .RXPORT_UNKNOWN_SC) n
  else d.ibVerdict a c t body

/-- The cipher start of a frame on a line port, step 1 of R93 and on (R88, R94, R96, R142). -/
def Dev.ibFrame (d : Dev) (a : Arrival) : Dev :=
  let k := drayOf a.port
  let ok := d.ibAdmitted a
  let d := d.takeArrival a
  let w := checkFrame a.len a.bytes
  if w != 0 then d.cnt a.port w
  else if !ok then d.pipeDrop a.port
  else
    let d := (d.ibAdd k 1 a.len).pmcEvent (4 + k) 2 (some a.port)
    let body := a.bytes.take (a.bytes.length - 4)
    match findTag body with
    | none => d.clearFrame a
    | some i => d.taggedFrame a body i

/-- The next unit of port p whose cipher start has come (R142): assigned two beats ago, at this offset or before. -/
def Dev.nextStart (d : Dev) (p : Nat) : Option Arrival :=
  if d.beat < 2 then none
  else (d.arrivalsOf (d.beat - 2) fun a => a.port == p && !a.taken).find? fun a => a.offset ≤ d.clk.cclk

/-- A frame-mode line port's next cipher start (R142). -/
def Dev.cipherStart (d : Dev) (p : Nat) : Dev :=
  if d.preRun || d.still || !isLine p || 64 ≤ p || d.thatchMode p || !d.ibWorks (drayOf p) then d else
  match d.nextStart p with
  | some a => d.ibFrame a
  | none => d

/-! Verdict. -/

/-- The unit a verdict is about. -/
def verdictKey (v : PendingVerdict) (p : Pkt) : Bool := p.ingress == v.port && p.beat == v.beat && p.index == v.index

/-- The units of a verdict that have not started: still to push, queued or in a relay queue. -/
def Dev.unitsFor (d : Dev) (f : Pkt → Bool) : List Pkt :=
  (d.loft.toPush.flatMap fun (e : Nat × List Pkt) => if e.1 < 8 then e.2.filter f else []) ++
  (d.loft.relay.flatMap fun (e : Nat × List Pkt) => e.2.filter f) ++
  (d.loft.queues.flatMap fun (e : Nat × List QEntry) => (unitsOf e.2).filter f)

/-- The outcome under the NEXT_PN in force at the verdict (R139-R141, R148). A slot that R230 has closed receives nothing. Of
a slot that was cleared since the cipher start the tag alone decides (log entry 53). -/
def Dev.verdictResult (d : Dev) (v : PendingVerdict) : RxResult :=
  if v.result != RxResult.ok then v.result else
  let s := (if v.probe then d.probeSlot (drayOf v.port) v.coach v.stage else none).orElse fun _ => slotFor (d.co v.coach) v.stage
  match s with
  | none => if v.tagOk then .ok else .tagFail
  | some s =>
    let low := lowestPn s.nextPn v.replayWin
    let pn := recoverPn low v.pnLow
    if s.rxBad then .inNoSa else if v.replayEn && pn < low then .inLate else if v.tagOk && pn == v.pn then .ok else .tagFail

/-- NEXT_PN rises past a verified PN (R139). -/
def Dev.raiseNext (d : Dev) (k c stage pn : Nat) (probe : Bool) : Dev :=
  let up := fun (s : Slot) => { s with nextPn := max s.nextPn (pn + 1) }
  if probe && (d.probeSlot k c stage).isSome then
    match tget d.coach.probe k with
    | some p => { d with coach := { d.coach with probe := tset d.coach.probe k { p with slot := p.slot.map up } } }
    | none => d
  else d.modCo c fun x => match slotFor x stage with | some s => putSlot x (up s) | none => x

/-- A unit verified under a coach: NEXT_PN, the switch event, and a jump when it was the probe slot (R139, R215, R224). -/
def Dev.verified (d : Dev) (k c stage pn : Nat) (probe : Bool) : Dev :=
  let d := d.raiseNext k c stage pn probe
  if probe && (d.probeSlot k c stage).isSome then d.probeHit k c else d.noteVerified c stage

/-- Raise a learning event (R326). -/
def Dev.learnEvent (d : Dev) (p beat index c : Nat) (l : Option (Nat × Nat)) : Dev :=
  match l with
  | some (q, key) =>
    let e : LearnEvent := { lport := portNo p, beat := beat, index := index, cport := q, key := key, coach := c }
    { d with ports := { d.ports with learn := d.ports.learn ++ [e] } }.pmcEvent 8 4
  | none => d

/-- A frame that passed every check (R82, R148, R206, R236, R326). -/
def Dev.verdictPass (d : Dev) (v : PendingVerdict) : Dev :=
  let d := (d.verified (drayOf v.port) v.coach v.stage v.pn v.probe).coWide v.coach 2 1
  let d := d.coWide v.coach 3 v.octets
  if v.macCtl then d.cnt v.port 7
  else if v.route then d
  else
    let d := if v.relay then d.cnt v.port 15 else d
    d.learnEvent v.port v.beat v.index v.coach v.learn

/-- A frame that failed: its one counter, and the drop-remainder command (R141, R145, R148, R402). -/
def Dev.verdictFail (d : Dev) (v : PendingVerdict) (r : RxResult) : Dev :=
  let d := match r with
    | .badTag => d.rxPortCnt .RXPORT_BAD_TAG (portNo v.port)
    | .unknownSc => d.rxPortCnt .RXPORT_UNKNOWN_SC (portNo v.port)
    | .inBadTag => d.coCount v.coach 11
    | .inNoSa => d.coCount v.coach 12
    | .inLate => d.coCount v.coach 13
    | .tagFail => (d.coCount v.coach 14).pmcEvent (4 + drayOf v.port) 5 (some v.port)
    | .ok => d
  let d := match v.probeReq with
    | some q => if d.probeWanted (drayOf v.port) v.coach q then d.askProbe (drayOf v.port) v.coach q else d
    | none => d
  (d.unitsFor (verdictKey v)).foldl (fun d u => d.dropUnit u) d

/-- The verdict of one frame, with or without an uncorrectable NEXT_PN (R143, R230). -/
def Dev.frameVerdict (d : Dev) (v : PendingVerdict) (pnErr : Bool) : Dev :=
  let d := { d with ports := { d.ports with verdicts := d.ports.verdicts.filter (· != v) } }
  if pnErr && v.result == RxResult.ok && d.actsOnErrors && !v.probe then
    (d.nextPnError v.coach v.stage).verdictFail v .inNoSa
  else
    let d := if pnErr && v.result == RxResult.ok then d.nextPnError v.coach v.stage else d
    match d.verdictResult v with
    | .ok => d.verdictPass v
    | r => d.verdictFail v r

/-- The oldest verdict of port p that is due at the CCLK under way (R143). -/
def Dev.nextVerdict (d : Dev) (p : Nat) (pnErr : Bool) : Dev :=
  if d.still then d else
  match d.ports.verdicts.find? fun v => v.port == p && v.at_ ≤ d.now with
  | some v => d.frameVerdict v pnErr
  | none => d

end Sys2Proof.Machine
end

