-- ==== Sys2Proof/Machine/Thatch.lean ====
section
/-! DEFINITION. Thatch: the superframe (R157-R170), packing and AIS (R174-R177), alignment (R178-R180), reception and
parsing (R181-R185), verdicts (R186-R190) and defects (R192-R195). -/

namespace Sys2Proof.Machine

/-! Sending. -/

/-- The client frame part of which is still to send is lost (R159, R176): its cells become free. -/
def Dev.loseLeft (d : Dev) (n : Nat) : Dev :=
  let x := d.thatch n
  let d := match x.txOwner with | some u => d.cutCells (· == queueOf u) d.now | none => d
  d.setThatch n { x with txLeft := [], txOwner := none }

/-- Whether a started client frame still has bytes to send. -/
def Dev.hasLeft (d : Dev) (n : Nat) : Bool := (d.thatch n).txOwner.isSome && !(d.thatch n).txLeft.isEmpty

/-- ALARM of a superframe that starts in this beat, AIS bit apart (R164). -/
def Dev.alarmBits (d : Dev) (n : Nat) : Nat :=
  let rdi := (d.thatch n).raw &&& rdiMask != 0
  let csf := !d.relayRole (32 + n) && !(d.port (d.thatchClient (32 + n))).linkUp
  b2n rdi * 2 ^ 14 + b2n csf * 2 ^ 13

/-- The superframe is an AIS superframe (R176, R209). -/
def Dev.sendsAis (d : Dev) (n : Nat) : Bool := !d.canSend (d.thpCoach n) || d.flag .THP_CTL [n] 28

/-- An AIS superframe starts (R176). -/
def Dev.sendAis (d : Dev) (n : Nat) : Dev :=
  let c := d.thpCoach n
  let x := d.thatch n
  let d := if d.hasLeft n then (d.loseLeft n).coCount c 8 else d.loseLeft n
  let b := hdrWhole (hdrStart 0 0 c 0 0 (0x8000 + d.alarmBits n)) [0#8, 0#8] ++ List.replicate 16400 0#8
  let k : TxSf := { start := b.take 26, key := 0, iv := 0, fdp := 0, ais := true, coach := c, at_ := x.txNext, off := 0, out := [] }
  (d.setThatch n { d.thatch n with txSf := some k, txLast := b }).thpCnt n 10

/-- A protected superframe with sequence number `pn` under slot s starts (R170, R174, R175). -/
def Dev.sendProtected (d : Dev) (n pn : Nat) (s : Slot) : Dev :=
  let p := 32 + n
  let c := d.thpCoach n
  let x := d.thatch n
  let label := if !d.relayRole p && !d.en (d.thatchClient p) then 0 else 1
  let start := hdrStart label (s.stage % 4 * 64 + b2n (d.nextLoaded c) * 32) c s.stage pn (d.alarmBits n)
  let k : TxSf := { start := start, key := s.key, iv := ivOf (d.txSsci c) pn s.salt, fdp := min x.txLeft.length 16383, ais := false,
                    coach := c, at_ := x.txNext, off := 0, out := [] }
  ((d.putItem n k x.txLeft x.txOwner).coWide c 0 1).coWide c 1 sfBytes

/-- The next superframe of line port n starts, when its CCLK has come, once the one before it is handed over (R159, R175,
R176). -/
def Dev.superframeSend (d : Dev) (n : Nat) (err : Option PnErr) : Dev :=
  let p := 32 + n
  let x := d.thatch n
  if 32 ≤ n || d.preRun || d.halt || !x.txOn || !d.en p || !d.thatchMode p || d.now < txCclk x.txNext (d.rate p) 0 ||
     !d.domOn (serdesDom p) then d else
  let c := d.thpCoach n
  let d := match err with | some e => d.pnFlips [(c, e)] | none => d
  let d := (d.cnt p 2).cnt p 3 sfBytes
  let d := if d.sendsAis n then d.sendAis n else
    let r := d.takePn c
    match r.2, slotFor (r.1.co c) (r.1.co c).stage with
    | some pn, some s => r.1.sendProtected n pn s
    | _, _ => r.1.sendAis n
  d.setThatch n { d.thatch n with txNext := x.txNext + 48 * sfBytes }

/-- Start or end of the superframe stream at the boundary that starts beat b (R159). -/
def Dev.sfStream (d : Dev) (b n : Nat) : Dev :=
  let p := 32 + n
  let x := d.thatch n
  let on := d.isThatch n && d.en p && d.clk.run && !d.halt
  if on && !x.txOn then
    d.setThatch n { x with txOn := true, txNext := b * 1200 * (5 * d.rate p), txLeft := [], txOwner := none }
  else if !on && x.txOn then
    let d := if d.hasLeft n then d.cnt p 13 else d
    let d := d.loseLeft n
    d.setThatch n { d.thatch n with txOn := false }
  else d

/-! Alignment. -/

/-- LOS or LOL in effect (R178). -/
def Dev.phyDown (d : Dev) (n : Nat) : Bool := (d.thatch n).raw / 32 % 4 != 0

/-- A held candidate meets the position one superframe later: gone, still held, or good for SYNC. One that stands by its FAW
and by its HCRC takes both rows (R178; log entry 75). -/
def candTest (pos : Nat) (ctrl : Bool) (h : SfHdr) (c : Cand) : Option Cand × Bool :=
  if pos < c.pos + 2054 then (some c, false)
  else if c.pos + 2054 < pos || ctrl then (none, false)
  else if c.faw && h.isFaw && h.fits then (none, true)
  else if c.crc && h.fits && ((h.seq == c.seq + 1 && !h.ais) || (h.ais && c.ais)) then
    if c.hits == 1 then (none, true) else (some { c with pos := pos, faw := false, seq := h.seq, ais := h.ais, hits := 1 }, false)
  else (none, false)

/-- A superframe position becomes a unit, or a void position, when the port assigns (R105, R180). -/
def Dev.sfArrival (d : Dev) (n phi : Nat) (void : Bool) (b : Bytes) : Dev :=
  let p := 32 + n
  let x := d.thatch n
  let d := d.setThatch n { x with ord := x.ord + 1 }
  if d.assigns p || (d.follows && d.en p) then d.addArrival (d.newArrival p phi sfBytes x.ord void b) else d

/-- A block position in HUNT or PRESYNC (R178, R179). -/
def Dev.huntPosition (d : Dev) (n phi pos : Nat) (ctrl : Bool) (b : Bytes) : Dev :=
  let x := d.thatch n
  let h := readHdr b
  let tests := x.cands.map (candTest pos ctrl h)
  let isFaw := h.isFaw && !ctrl
  let x := { x with pos := pos, lastFaw := if isFaw then some pos else x.lastFaw }
  if tests.any (·.2) then
    (d.setThatch n { x with align := .sync, cands := [], misses := 0, expect := pos + 2054 }).sfArrival n phi false b
  else
    let kept := tests.filterMap (·.1)
    let crcOk := d.flag .THP_CTL [n] 30 && !ctrl && h.fits &&
      (match (d.thatch n).lastFaw with | none => true | some l => l + 4108 < pos)
    let isNew := isFaw || crcOk
    let full := 8 ≤ kept.length
    let c : Cand := { pos := pos, faw := isFaw, crc := crcOk, seq := h.seq, ais := h.ais, hits := 0 }
    let cands := if isNew && !full then kept ++ [c] else kept
    let d := d.setThatch n { x with cands := cands, align := if cands.isEmpty then .hunt else .presync }
    if isNew && full then d.thpCnt n 9 else d

/-- The expected position in SYNC (R178). The fourth consecutive miss counts in SF_MISS as the first three do (log entry 54). -/
def Dev.syncPosition (d : Dev) (n phi pos : Nat) (ctrl : Bool) (b : Bytes) : Dev :=
  let x := d.thatch n
  let h := readHdr b
  let x := { x with pos := pos, expect := pos + 2054, lastFaw := if h.isFaw && !ctrl then some pos else x.lastFaw }
  if !ctrl && (h.isFaw || h.fits) then (d.setThatch n { x with misses := 0 }).sfArrival n phi false b
  else
    let m := x.misses + 1
    let d := d.setThatch n { x with misses := if m == 4 then 0 else m, align := if m == 4 then .hunt else .sync }
    (d.thpCnt n 1).sfArrival n phi true []

/-- The aligner of line port n examines a block position in quarter φ of the CCLK under way (R178). A list shorter than a
superframe is one that the line stopped delivering part-way (R401). Once the aligner is in SYNC its positions are units, LOF in
effect or not (log entry 56). -/
def Dev.alignerPosition (d : Dev) (n phi pos : Nat) (ctrl : Bool) (b : Bytes) : Dev :=
  let b := b.take sfBytes
  if 32 ≤ n || 4 ≤ phi || d.preRun || d.still || !d.isThatch n || d.phyDown n then d
  else if (d.thatch n).align == Align.sync then
    (if pos == (d.thatch n).expect then d.syncPosition n phi pos ctrl b else d)
  else d.huntPosition n phi pos ctrl b

/-! Receiving. -/

/-- The Thatch positions of a port that are still to process, in order. -/
def Dev.sfWaiting (d : Dev) (p : Nat) : List Arrival := d.ports.arrivals.filter fun a => a.port == p && !a.taken && !a.held

/-- Run counters of R192: breaks 0, continuous 1, PLM 2, not PLM 3, AIS 4, not AIS 5, TAG failures 6, verified 7. Add to
counter i and end the run of counter j. -/
def bumpRun (r : List Nat) (i j : Nat) : List Nat := (r.set i (min 8 (r.getD i 0 + 1))).set j 0

/-- LOM, PLM, AIS and TAG as the runs leave them (R192). -/
def runCond (cond : Nat) (r : List Nat) : Nat :=
  let one := fun (c b up n down : Nat) =>
    if n ≤ r.getD up 0 then c ||| 2 ^ b else if 2 ≤ r.getD down 0 then c &&& (127 - 2 ^ b) else c
  one (one (one (one cond 3 0 3 1) 2 2 3 3) 1 4 2 5) 0 6 3 7

/-- Continuity, PLM and AIS runs after a position that passes check 1 (R192). The first one that the port checks, which has none
before it, counts as continuous (log entry 79). -/
def Dev.sfRuns (d : Dev) (n : Nat) (h : SfHdr) (k : SfCheck) : Dev :=
  let x := d.thatch n
  if h.ais then
    let r := bumpRun x.runs 4 5
    d.setThatch n { x with runs := r, cond := runCond x.cond r }
  else
    let cont := match x.lastSf with
      | none => true
      | some (st, sq) => (h.stage == st && h.seq == sq + 1) || h.stage == st + 1
    let r := bumpRun x.runs 5 4
    let r := if cont then bumpRun r 1 0 else bumpRun r 0 1
    let r := if k == .plm then bumpRun r 2 3 else bumpRun r 3 2
    d.setThatch n { x with runs := r, cond := runCond x.cond r, lastSf := some (h.stage, h.seq) }

/-- TAG runs after a position that reached check 4 (R192). -/
def Dev.tagRun (d : Dev) (n : Nat) (good : Bool) : Dev :=
  let x := d.thatch n
  let r := if good then bumpRun x.runs 7 6 else bumpRun x.runs 6 7
  d.setThatch n { x with runs := r, cond := runCond x.cond r }

/-- Place an outcome by its position. -/
def placeTag (o : Nat × Bool) : List (Nat × Bool) → List (Nat × Bool)
  | [] => [o]
  | x :: r => if x.1 < o.1 then x :: placeTag o r else o :: x :: r

/-- The outcome of position `ord`, which reached check 4, joins those that wait; every one whose earlier positions have their
verdicts extends its run, in the order of positions (R192). -/
def Dev.tagOutcome (d : Dev) (n ord : Nat) (good : Bool) : Dev :=
  let x := d.thatch n
  let l := placeTag (ord, good) x.tagWait
  let open_ := fun (o : Nat × Bool) => d.ports.sfs.any fun v => v.port == 32 + n && v.reached && v.ord < o.1
  let d := d.setThatch n { x with tagWait := l.filter open_ }
  (l.filter fun o => !open_ o).foldl (fun d o => d.tagRun n o.2) d

/-- What the parser of one superframe works with. -/
structure RxCtx where
  n     : Nat
  rate  : Nat
  /-- The superframe being parsed and the position after it, when one has been seen. -/
  a     : Arrival
  next  : Option Arrival
  /-- Its admission under R96. -/
  admits : Bool
  coach : Nat

/-- Verify-first in the settings in effect (R188). -/
def Dev.verifyFirst (d : Dev) (n : Nat) : Bool := d.flag .THP_CTL [n] 31

/-- The unit of a carried frame whose first byte is byte y of superframe `a`, carried by superframe `car` (R183, R185,
R187-R189). -/
def Dev.carriedUnit (d : Dev) (x : RxCtx) (car : Arrival) (y len tc index : Nat) (bytes : Bytes) (inA : Nat) : Pkt :=
  let p := 32 + x.n
  let r := x.rate
  -- a frame whose delimiter ends the payload has its first byte in the next superframe's payload (R183)
  let first := if y == 32 + payloadBytes then car else x.a
  let y := if y == 32 + payloadBytes then 32 else y
  let pos : Int := if car.ord == first.ord then (y : Int) else (y : Int) - sfBytes
  let df := bytePos r pos
  let cs : Int := sfStart car
  let relay := d.relayRole p
  let vf := d.verifyFirst x.n
  let due : Int := if relay then ((car.beat + car.lat) * 1200 : Nat) + car.offset + df
    else cs + ((car.lat - 4) * 1200 + 100 : Nat) + df + (if vf then (tSf r : Int) else 0)
  let nb : Nat := if relay then (cs + 1200 + df).toNat
    else if vf then max (sfVerdictAt r x.a false) (sfVerdictAt r car car.void) + 1 else 0
  let w := d.rd .DRY_LPORT_THATCH [drayOf p, portIx p]
  { ingress := p, beat := car.beat, index := index, offset := (car.offset : Int) + df,
    rts := car.rts.map fun (s : Nat) => ((s : Int) + (2 * 8 * 65536 * pos + r) / (2 * r : Nat)).toNat,
    eave := car.beat * 1200 + car.offset,
    bytes := bytes, egress := if relay then 32 + bits w 20 16 else d.thatchClient p, tc := tc,
    coach := if relay then bits w 15 0 else x.coach, due := due.toNat, held := len, cells := [],
    pipe := if relay then 16 else 4 + x.n / 8, proc := d.beat, read := false,
    pushAt := sfStart first + 48 * y / (5 * r) + 96, wrDiv := 5 * r, wrStep := 48,
    wrFrom := 5 * r * (sfStart first + 96) + 48 * y, split := if car.ord == first.ord then len else inA,
    wrNext := 5 * r * (sfStart car + 96) + 48 * 32, notBefore := nb, planned := false,
    actual := !relay && (ptpAt (bytes ++ List.replicate (len - bytes.length) 0#8)).isSome, ghost := false }

/-- The next arrival index of carried frames of a port in beat b (R183). -/
def Dev.carriedIndex (d : Dev) (n b : Nat) : Nat × Dev :=
  let t := d.thatch n
  let i := if t.rxBeat == b then t.rxIdx else 0
  (i, d.setThatch n { t with rxBeat := b, rxIdx := i + 1 })

/-- A carried frame has no place to go in its Inbound pipe: on a relay port it names no coach (R101), on a direct one its client
port breaks R85. The route of a relay unit is checked where it is re-encrypted (R390). Such a frame counts in DROP_ROUTE even
when it is a MAC control frame (log entry 76). -/
def Dev.carriedRoute (d : Dev) (u : Pkt) (relay : Bool) : Bool :=
  if relay then u.coach == 0 else !d.ibRoute (drayOf u.ingress) u.egress

/-- Charge a carried frame to its pipe, or drop it (R95-R97). -/
def Dev.carriedAdmit (d : Dev) (x : RxCtx) : Option Dev :=
  let k := x.n / 8
  if x.admits && (d.ibBefore x.a).1 + d.admittedIn x.a + 1 ≤ d.pipeLimit.1 then
    some (({ d with ports := { d.ports with admits := d.ports.admits ++ [(x.a.port, x.a.index)] } }.ibAdd k 1 0).pmcEvent (4 + k) 2 (some x.a.port))
  else none

/-- A carried frame is known to be a MAC control frame (R82). -/
def isMacCtl (b : Bytes) : Bool := 14 ≤ b.length && field b 12 2 == 0x8808

/-- Put a carried frame among those whose verdicts are awaited. -/
def Dev.addLive (d : Dev) (n : Nat) (l : LiveFrame) : Dev :=
  let t := d.thatch n
  d.setThatch n { t with live := t.live ++ [l] }

/-- A carried frame that lies whole in the superframe, and the bytes it delivers; its last bytes are missing where the line
stopped (R401). -/
def Dev.wholeFrame (d : Dev) (x : RxCtx) (y len tc : Nat) (b : Bytes) : Dev × Nat :=
  let p := 32 + x.n
  let d := if b.length < len || fcsOf (b.take (len - 4)) == b.drop (len - 4) then d else d.thpCnt x.n 8
  let (i, d) := d.carriedIndex x.n x.a.beat
  match d.carriedAdmit x with
  | none => (d.pipeDrop p, 0)
  | some d =>
    let relay := d.relayRole p
    let u := d.carriedUnit x x.a y len tc i b len
    if d.carriedRoute u relay then (d.routeDrop p, 0) else
    let mac := isMacCtl b
    let d := d.addLive x.n
      { beat := u.beat, index := i, waits := [x.a.ord], started := false, cut := false, macCtl := mac, relay := relay,
        learn := if relay then none else d.learnKey u.egress b, coach := x.coach, unit := none }
    if mac then (d, 0) else (d.addPush (4 + x.n / 8) u, len)

/-- The first part of a carried frame that the next superframe ends (R169, R183); both superframes hold bytes of it, the first
one at least its delimiter (log entry 78). Until the bytes that have come show its
EtherType, no byte of it is written (R82). -/
def Dev.openPart (d : Dev) (x : RxCtx) (y len tc : Nat) (b : Bytes) : Dev :=
  let p := 32 + x.n
  match x.next with
  | none => d.setThatch x.n { d.thatch x.n with rxItem := .fdp }
  | some car =>
    let (i, d) := d.carriedIndex x.n car.beat
    let d := d.setThatch x.n { d.thatch x.n with rxOpen := (car.beat, i) }
    let relay := d.relayRole p
    let u := d.carriedUnit x car y len tc i b b.length
    if d.carriedRoute u relay then d else
    let mac := isMacCtl b
    let known := 14 ≤ b.length
    let d := d.addLive x.n
      { beat := u.beat, index := i, waits := [x.a.ord, car.ord], started := false, cut := false, macCtl := mac, relay := relay,
        learn := none, coach := x.coach, unit := if known then none else some u }
    if mac || !known then d else d.addPush (4 + x.n / 8) u

/-- The unit of a carried frame by its arrival beat and index. -/
def carriedKey (p beat index : Nat) (u : Pkt) : Bool := u.ingress == p && u.beat == beat && u.index == index

/-- Change the live frame of a beat and index. -/
def Dev.modLive (d : Dev) (n beat index : Nat) (f : LiveFrame → LiveFrame) : Dev :=
  let t := d.thatch n
  d.setThatch n { t with live := t.live.map fun l => if l.beat == beat && l.index == index then f l else l }

/-- Every unit of a carried frame, started ones among them. -/
def Dev.carriedUnits (d : Dev) (p beat index : Nat) : List Pkt :=
  d.unitsFor (carriedKey p beat index) ++
  d.loft.tx.filterMap fun (e : Nat × TxUnit) => if carriedKey p beat index e.2.pkt then some e.2.pkt else none

/-- The last part of a carried frame, whole as `b`, and the bytes it delivers (R82, R96, R184). -/
def Dev.closePart (d : Dev) (x : RxCtx) (len : Nat) (b : Bytes) : Dev × Nat :=
  let p := 32 + x.n
  let (beat, index) := (d.thatch x.n).rxOpen
  let d := if fcsOf (b.take (len - 4)) == b.drop (len - 4) then d else d.thpCnt x.n 8
  let us := d.carriedUnits p beat index
  match d.carriedAdmit x with
  | none =>
    let d := us.foldl (fun d u => d.dropUnit u) (d.pipeDrop p)
    let t := d.thatch x.n
    (d.setThatch x.n { t with live := t.live.filter fun l => !(l.beat == beat && l.index == index) }, 0)
  | some d =>
    match (d.thatch x.n).live.find? fun l => l.beat == beat && l.index == index with
    | none => (d.routeDrop p, 0)
    | some f =>
      let mac := isMacCtl b
      let full := fun (v : Pkt) => { v with bytes := b, actual := v.actual || (v.pipe != 16 && (ptpAt b).isSome) }
      let d := us.foldl (fun d u => d.modUnit u full) d
      let d := match f.unit with | some u => if mac then d else d.addPush (4 + x.n / 8) (full u) | none => d
      let d := forEach 64 d fun d q => d.ptpStarted q
      let l := if d.relayRole p then none else d.learnKey (d.thatchClient p) b
      (d.modLive x.n beat index fun f => { f with macCtl := mac, learn := l, coach := x.coach, unit := none }, if mac then 0 else len)

/-- What becomes of one piece of a payload, and the bytes it delivers (R182). -/
def Dev.takePiece (x : RxCtx) (s : Dev × Nat) : Piece → Dev × Nat
  | .whole y len tc b => let r := s.1.wholeFrame x y len tc b; (r.1, s.2 + r.2)
  | .opens y len tc b => (s.1.openPart x y len tc b, s.2)
  | .closes len b => let r := s.1.closePart x len b; (r.1, s.2 + r.2)
  | .delimErr => (s.1.thpCnt x.n 4, s.2)

/-- A payload whose first byte of plaintext is at hand is parsed: the octets of the frames it delivers are added up (R182,
R236). A frame that goes on past it takes its further bytes. -/
def Dev.parseSf (d : Dev) (x : RxCtx) (fdp : Nat) (pay : Bytes) : Dev × Nat :=
  let r := parsePayload (d.thatch x.n).rxItem fdp pay
  let d := d.setThatch x.n { d.thatch x.n with rxItem := r.2 }
  let s := r.1.foldl (Dev.takePiece x) (d, 0)
  match r.1, r.2 with
  | [], .frame _ b =>
    let o := (d.thatch x.n).rxOpen
    ((s.1.carriedUnits (32 + x.n) o.1 o.2).foldl (fun d u => d.modUnit u fun v => { v with bytes := b }) s.1, s.2)
  | _, _ => s

/-- Count a void position's check and note its verdict (R181, R186). -/
def Dev.sfVoid (d : Dev) (a : Arrival) (h : SfHdr) (k : SfCheck) : Dev :=
  let n := portNo a.port
  let d := match k with
    | .hdrErr => d.thpCnt n 0
    | .ais => d.thpCnt n 2
    | .plm => d.thpCnt n 3
    | .noSa => d.coCount h.coach 12
    | .late => d.coCount h.coach 13
    | .go => d
  let d := if k == .noSa && d.probeWanted (n / 8) h.coach h.stage then d.askProbe (n / 8) h.coach h.stage else d
  let v : PendingSf :=
    { port := a.port, at_ := sfVerdictAt (d.rate a.port) a true, ord := a.ord, ok := false,
      reached := k == .noSa || k == .late, tagFail := false, coach := h.coach, stage := h.stage, seq := h.seq,
      probe := false, alarm := h.alarm, nxt := false, octets := 0 }
  let d := { d with ports := { d.ports with sfs := d.ports.sfs ++ [v] } }
  d.setThatch n { d.thatch n with rxItem := .fdp }

/-- A position that passed checks 1 to 5: parse it, and note its verdict (R181, R182, R186). -/
def Dev.sfOpen (d : Dev) (a : Arrival) (h : SfHdr) (s : Slot × Bool) (admits : Bool) : Dev :=
  let n := portNo a.port
  let o := openSuperframe s.1.key (ivOf (d.rxSsci h.coach) h.seq s.1.salt) a.bytes
  let x : RxCtx := { n := n, rate := d.rate a.port, a := a, next := (d.sfWaiting a.port).head?, admits := admits, coach := h.coach }
  let r := d.parseSf x o.1 o.2.1
  let d := r.1
  let d := if o.2.2 then d else d.setThatch n { d.thatch n with rxItem := .fdp }
  let v : PendingSf :=
    { port := a.port, at_ := sfVerdictAt x.rate a false, ord := a.ord, ok := o.2.2, reached := true, tagFail := !o.2.2,
      coach := h.coach, stage := h.stage, seq := h.seq, probe := s.2, alarm := h.alarm, nxt := bit h.flags 5, octets := r.2 }
  { d with ports := { d.ports with sfs := d.ports.sfs ++ [v] } }

/-- The cipher start of the next position of line port n (R181, R186). -/
def Dev.superframeReceive (d : Dev) (n : Nat) (pnErr : Bool) : Dev :=
  let p := 32 + n
  if 32 ≤ n || d.preRun || d.still || !d.thatchMode p || !d.ibWorks (drayOf p) then d else
  match d.nextStart p with
  | none => d
  | some a =>
    let admits := d.ibAdmitted a
    let d := d.takeArrival a
    if a.void then d.sfVoid a (readHdr []) .go else
    let d := if admits then d.ibAdd (drayOf p) 0 sfBytes else d
    let h := readHdr a.bytes
    let k := d.sfCheck n h
    let d := if k.1 == .hdrErr then d else d.sfRuns n h k.1
    match k with
    | (.go, some s) =>
      if pnErr && !s.2 then
        let d := d.nextPnError h.coach h.stage
        if d.actsOnErrors then d.sfVoid a h .noSa else d.sfOpen a h s admits
      else d.sfOpen a h s admits
    | (c, _) => d.sfVoid a h c

/-! Verdicts. -/

/-- One carried frame at a failing verdict; one that the Loft refused or that was dropped at release counts as not yet started
(R190, R402; log entry 57). -/
def Dev.liveFail (d : Dev) (n : Nat) (l : LiveFrame) : Dev :=
  let p := 32 + n
  let us := d.unitsFor (carriedKey p l.beat l.index)
  if !us.isEmpty || !l.started then (us.foldl (fun d u => d.dropUnit u) d).thpCnt n 7
  else
    let slot := d.loft.tx.find? fun (e : Nat × TxUnit) =>
      carriedKey p l.beat l.index e.2.pkt && e.2.stomp.isNone && handed (d.rate e.1) e.2.start d.now < e.2.pkt.held
    match slot with
    | some e => (d.stomp e.1 d.now).thpCnt n 6
    | none =>
      d.thpCnt n (if l.cut then 6 else 5)

/-- A carried frame all of whose verdicts passed (R82, R101, R326). -/
def Dev.livePass (d : Dev) (n : Nat) (l : LiveFrame) : Dev :=
  let p := 32 + n
  if l.macCtl then d.cnt p 7
  else if l.relay then d.cnt p 15
  else d.learnEvent p l.beat l.index l.coach l.learn

/-- A failing verdict reaches every carried frame with bytes in the position (R190). -/
def Dev.sfFail (d : Dev) (n ord : Nat) : Dev :=
  let t := d.thatch n
  let hit := t.live.filter fun l => l.waits.contains ord
  let d := d.setThatch n { t with live := t.live.filter fun l => !l.waits.contains ord }
  hit.foldl (fun d l => d.liveFail n l) d

/-- A passing verdict. -/
def Dev.sfPass (d : Dev) (n ord : Nat) : Dev :=
  let t := d.thatch n
  let live := t.live.map fun l => { l with waits := l.waits.filter (· != ord) }
  let done := live.filter fun l => l.waits.isEmpty
  let d := d.setThatch n { t with live := live.filter fun l => !l.waits.isEmpty }
  done.foldl (fun d l => d.livePass n l) d

/-- The verdict of a position; a slot that R230 has closed since its cipher start receives nothing (R181, R186, R192, R195,
R216, R230). -/
def Dev.sfVerdict (d : Dev) (v : PendingSf) : Dev :=
  let n := portNo v.port
  let d := { d with ports := { d.ports with sfs := d.ports.sfs.filter (· != v) } }
  if (v.ok || v.tagFail) && !v.probe && d.slotShut v.coach v.stage then
    ((d.coCount v.coach 12).tagOutcome n v.ord false).sfFail n v.ord
  else if v.ok then
    let d := (d.verified (n / 8) v.coach v.stage v.seq v.probe).coWide v.coach 2 1
    let d := (d.coWide v.coach 3 v.octets).tagOutcome n v.ord true
    let d := d.modCo v.coach fun x => { x with lastNxt := v.nxt }
    let d := d.setThatch n { d.thatch n with rdiRx := bit v.alarm 14, csfRx := bit v.alarm 13 }
    d.sfPass n v.ord
  else
    let d := if v.tagFail then (d.coCount v.coach 14).pmcEvent (4 + n / 8) 5 (some v.port) else d
    let d := if v.reached then d.tagOutcome n v.ord false else d
    d.sfFail n v.ord

/-- The oldest verdict of line port n that is due at the CCLK under way (R186). -/
def Dev.nextSfVerdict (d : Dev) (n : Nat) : Dev :=
  if d.still then d else
  match d.ports.sfs.find? fun v => v.port == 32 + n && v.at_ ≤ d.now with
  | some v => d.sfVerdict v
  | none => d

/-! Defects. -/

/-- LOS, LOL and LOF as the port presents them at the end of a beat: LOS clears when every lane has had signal for the whole
of it (R192). -/
def Dev.phyCond (d : Dev) (n : Nat) : Nat :=
  let x := d.port (32 + n)
  let t := d.thatch n
  b2n (!x.sig || x.sigLost) * 64 + b2n (!(d.pcsLock (32 + n) && x.fec)) * 32 + b2n (t.align != Align.sync) * 16

/-- The highest-ranked defect alone (R194). -/
def topDefect (v : Nat) : Nat :=
  match (List.range 7).reverse.find? fun i => bit v i with
  | some i => 2 ^ i
  | none => 0

/-- Expected eave CCLK of the position after the last one of line port n, one superframe time later; not before the beat whose
cipher starts begin at the boundary of beat b (R186; log entry 77). -/
def Dev.expectedAt (d : Dev) (n b : Nat) : Nat :=
  match (d.ports.arrivals.filter fun a => a.port == 32 + n).getLast? with
  | some a => max (a.beat * 1200 + a.offset + 48 * sfBytes / (5 * d.rate (32 + n))) ((b - 2) * 1200)
  | none => (b - 2) * 1200

/-- LOS or LOL takes effect: the aligner falls back to HUNT and the position it expected is void (R178, R186). A partner
leaves to the record what the record can still bring (R489). -/
def Dev.alignLost (d : Dev) (n b : Nat) : Dev :=
  let t := d.thatch n
  let d := if t.align == Align.sync then
      let e := d.expectedAt n b
      let k := e / 1200
      let i := (d.ports.arrivals.filter fun a => a.port == 32 + n && a.beat == k && !a.held).length
      let new := d.newArrival (32 + n) 0 sfBytes t.ord true []
      let a := { new with beat := k, offset := e % 1200, index := i, held := new.held && b ≤ k + 1 }
      let d := d.setThatch n { t with ord := t.ord + 1 }
      if k == b then d.addArrival a else { d with ports := { d.ports with arrivals := d.ports.arrivals ++ [a] } }
    else d
  d.setThatch n { d.thatch n with align := .hunt, cands := [], misses := 0 }

/-- The defects of line port n at the boundary that starts beat b (R192-R194, R488). They stand still while it is no Thatch
port (log entry 58). -/
def Dev.defectStep (d : Dev) (b n : Nat) : Dev :=
  let x := d.port (32 + n)
  if !d.isThatch n then d.setPort (32 + n) { x with prevPhy := d.phyCond n, sigLost := !x.sig } else
  let t := d.thatch n
  let raw := (x.prevPhy &&& 0x70) + (t.cond &&& 0xF)
  let rpt := topDefect raw
  let d := d.setPort (32 + n) { x with prevPhy := d.phyCond n, sigLost := !x.sig }
  let d := d.setThatch n { t with raw := raw, rpt := rpt }
  let d := if rpt != t.rpt then d.setStat .THP_EVT [n] (rpt ^^^ t.rpt) else d
  if raw / 32 % 4 != 0 then d.alignLost n b else d

/-- Local Fault ordered sets take the place of idles on client port c (R195). -/
def Dev.localFault (d : Dev) (c : Nat) : Bool :=
  match d.boundLine c with
  | none => false
  | some p =>
    let t := d.thatch (portNo p)
    d.flag .THP_CTL [portNo p] 29 && (t.raw &&& 0b1111110 != 0 || t.csfRx)

end Sys2Proof.Machine
end

