-- ==== Sys2Proof/Machine/Transmit.lean ====
section
/-! DEFINITION. Release and transmission: starts (R33, R34, R388, R397), drops at release (R107), completion (R385) and
underrun (R401). -/

namespace Sys2Proof.Machine

/-- The port sends in this beat: EN, its link up in effect, its SerDes powered (R105-R107). -/
def Dev.sends (d : Dev) (p : Nat) : Bool := d.exists_ p && d.en p && (d.port p).linkUp && d.domOn (serdesDom p)

/-- A head unit is a candidate at CCLK t (R388). -/
def Dev.candidate (d : Dev) (p tc t : Nat) (u : Pkt) : Bool :=
  u.due ≤ t && u.notBefore ≤ t && d.eligible u t && d.gateAdmits p tc t u.held && d.shaperAdmits (8 * p + tc) t

/-- The candidate of the highest traffic class: queue and unit (R388). -/
def Dev.chosen (d : Dev) (p t : Nat) : Option (Nat × Pkt) :=
  (List.range 8).reverse.findSome? fun tc =>
    match d.queue (8 * p + tc) with
    | .unit u :: _ => if d.candidate p tc t u then some (8 * p + tc, u) else none
    | _ => none

/-- A carried frame of a Thatch port has started (R190). -/
def Dev.liveStart (d : Dev) (u : Pkt) : Dev :=
  if isLine u.ingress && u.ingress < 64 then d.modLive (portNo u.ingress) u.beat u.index fun l => { l with started := true } else d

/-- Start unit u, the head of queue q, on slot p (R33, R385, R422, R447, R515). -/
def Dev.startUnit (d : Dev) (p q : Nat) (u : Pkt) : Dev :=
  let s := d.now
  let r := d.rate p
  let d := (d.setQueue q ((d.queue q).drop 1)).holdCells q u.cells (cellFreeAt r s u.held)
  let d := (d.shaperCharge q s u.held).pmcEvent 10 2 (some p)
  let d := { d with loft := { d.loft with lastStart := tset d.loft.lastStart p s } }
  let d := d.setPort p { d.port p with freeAt := s + lineCclk r (u.held + 20) }
  if u.ghost then d else
  let d := (d.cnt p 2).cnt p 3 u.held
  let d := if u.planned && u.due < s then (d.count .TIM_PTP_CNT [p, 2]).irq .TIM_INT_STAT 9 else d
  let c := d.ptpAtStart s u
  let d := c.1.liveStart u
  { d with loft := { d.loft with tx := tset d.loft.tx p ⟨c.2, s, none⟩ } }

/-- The scheduler of slot p starts a unit in the CCLK under way, when one may start (R33, R388). -/
def Dev.transmit (d : Dev) (p : Nat) : Dev :=
  if d.preRun || d.halt || 64 ≤ p || !d.sends p || d.thatchMode p || d.now < (d.port p).freeAt then d else
  let d := forEach 8 d fun d i => d.gapRemove (8 * p + i) d.now
  match d.chosen p d.now with
  | some (q, u) => d.startUnit p q u
  | none => d

/-- Drop the due heads of queue q at release; the fuel is more than a queue holds (R107). -/
def Dev.dropHeads (d : Dev) (p q : Nat) : Nat → Dev
  | 0 => d
  | n + 1 =>
    let d := d.gapRemove q d.now
    match d.queue q with
    | .unit u :: _ => if u.due ≤ d.now then ((d.removeUnit q u).cnt p 13).dropHeads p q n else d
    | _ => d

/-- Drops at release on a slot whose port does not send in this beat (R107). -/
def Dev.releaseDrop (d : Dev) (p : Nat) : Dev :=
  if d.preRun || d.still || 64 ≤ p || (d.exists_ p && d.en p && (d.port p).linkUp) then d
  else forEach 8 d fun d i => d.dropHeads p (8 * p + i) 262145

/-- The lanes of slot p are in electrical idle: no enabled port, a fence, or a halt that a boundary has followed (R108, R363,
R503). -/
def Dev.lanesIdle (d : Dev) (p : Nat) : Bool :=
  !d.exists_ p || !d.en p || !d.domOn (serdesDom p) || d.still || d.pair.fence || d.pair.state == .fenced

/-- What the transmit lanes of slot p carry in the CCLK under way (R108). -/
def Dev.lineOut (d : Dev) (p : Nat) : LineOut :=
  if d.lanesIdle p then .electricalIdle
  else if d.thatchMode p && (d.thatch (portNo p)).txOn then .superframes
  else
    let rest := if !isLine p && d.localFault p then LineOut.localFault else .idles
    match tget d.loft.tx p with
    | none => rest
    | some x =>
      let n := handed (d.rate p) x.start d.now
      match x.stomp with
      | some b => if n < b.length + 8 then .stomped b n else rest
      | none => if x.start + lineCclk (d.rate p) x.pkt.held ≤ d.now then rest else .frame x.pkt (min n x.pkt.held)

/-- The last byte of the unit under way on slot p has been handed over (R385). -/
def Dev.txComplete (d : Dev) (p : Nat) : Dev :=
  match tget d.loft.tx p with
  | none => d
  | some x =>
    let n := match x.stomp with
      | none => x.pkt.held
      | some m => m.length + 8
    if x.start + lineCclk (d.rate p) n ≤ d.now then { d with loft := { d.loft with tx := tdel d.loft.tx p, hold := d.loft.hold.filter fun h => d.now < h.1 } }
    else d

/-- The transmit side of slot p reaches a byte that has not been written (R401). -/
def Dev.underrun (d : Dev) (p : Nat) : Dev :=
  match tget d.loft.tx p with
  | none => d
  | some x =>
    let w := written x.pkt d.now
    if x.stomp.isNone && w < x.pkt.held && w < handed (d.rate p) x.start d.now then
      let d := (d.stompAt p w d.now).irq .LOFT_QFLAG 0 [queueOf x.pkt]
      let d := d.irq .LOFT_INT_STAT 1
      if isLine x.pkt.ingress then
        d.modLive (portNo x.pkt.ingress) x.pkt.beat x.pkt.index fun l => { l with cut := true } else d
    else d

end Sys2Proof.Machine
end

