-- ==== Sys2Proof/Machine/Pipes.lean ====
section
/-! DEFINITION. Relay re-encryption (R100-R103), the Outbound pipe's beat (R87), the pushes of R688 and the order of the
steps of one CCLK (R397). -/

namespace Sys2Proof.Machine

/-! Relay. -/

/-- What becomes of an admitted relay unit: the re-encrypted unit, or one without bytes that uses its start and writes
nothing (R85, R91, R209, R390). -/
def Dev.relayOut (d : Dev) (k : Nat) (u : Pkt) : Dev × Pkt :=
  let none_ := { u with bytes := [], held := 0 }
  let p := u.egress
  if !d.relayRoute p || (u.coach == 0 && !d.thatchMode p) then (d.routeDrop u.ingress, none_)
  else if d.thatchMode p then
    let m := delimiter u.bytes.length u.tc ++ u.bytes
    (d, { u with bytes := m, held := m.length, pipe := k, proc := d.beat, cells := [], actual := (ptpAt u.bytes).isSome })
  else if 9216 < u.bytes.length + overhead (d.tagForm u.coach) then (d.cnt u.ingress 8, none_)
  else
    let r := d.ptpPlanned p u u.bytes
    let e := r.1.encrypt u.coach r.2.1
    match e.2 with
    | none => (e.1, none_)
    | some m => (e.1, { u with bytes := m, held := m.length, pipe := k, proc := d.beat, cells := [], planned := r.2.2,
                               actual := false })

/-- Take a relay unit out of its queue, or out of the units still to push into it; the cells of a queued one become free at
`at_ j` (R390). -/
def Dev.relayGone (d : Dev) (k : Nat) (u : Pkt) (at_ : Nat → Nat) : Dev :=
  let d := d.relayPop k u at_
  { d with loft := { d.loft with toPush := (d.loft.toPush.map fun (e : Nat × List Pkt) =>
      (e.1, if e.1 < 8 then e.2.filter fun v => !(v.pipe == 16 && sameUnit u v) else e.2)).filter fun (e : Nat × List Pkt) =>
      !e.2.isEmpty } }

/-- Admit one relay unit of the beat into Outbound pipe k (R96, R616). -/
def Dev.relayAdmit (d : Dev) (k : Nat) (s : List Pkt) (u : Pkt) : Dev × List Pkt :=
  let atEnd := fun (_ : Nat) => (max d.beat (u.beat + 3) + 1) * 1200
  if !d.domOn (obDom k) then ((d.routeDrop u.ingress).relayGone k u atEnd, s) else
  let len := d.encapLen (d.thatchMode u.egress) (some u.coach) u.bytes.length
  match d.pipeAdmit k 1 len with
  | none => ((d.pipeDrop u.ingress).relayGone k u atEnd, s)
  | some d =>
    let r := ((d.pmcEvent (4 + k) 4 (some u.ingress)).modUnit u fun v => { v with read := true }).relayOut k u
    (r.1, s ++ [r.2])

/-- Order of re-encryption starts: target CCLK, the admission order among equal targets (R103). -/
def placeTarget (u : Pkt) : List Pkt → List Pkt
  | [] => [u]
  | v :: r => if u.notBefore < v.notBefore then u :: v :: r else v :: placeTarget u r

/-- Give each admitted relay unit its start CCLK (R103); one whose target is past when its pipe admits it starts in the beat that
admits it. -/
def Dev.relayStarts (d : Dev) (k : Nat) (l : List Pkt) : Dev :=
  l.foldl (fun d u =>
    let t := max (max u.notBefore (d.beat * 1200)) (tgetD d.loft.relayNext k 0)
    ({ d with loft := { d.loft with relayNext := tset d.loft.relayNext k (t + 1) } }).addPush (8 + k)
      { u with pushAt := t, wrDiv := 128, wrStep := 1, wrFrom := 128 * t, split := u.held })
    d

/-- Units of relay queue k whose target CCLK comes before the beat that re-encrypts them, as e + D_f < 0 makes it, are admitted at
it, ahead of the other units of that beat and charged to it (R96, R103, R189; log entry 62). -/
def Dev.relayEarly (d : Dev) (k : Nat) : Dev :=
  match (d.relayQ k).filter fun u => !u.read && u.beat + 2 == d.beat && u.notBefore ≤ d.now with
  | [] => d
  | l =>
    let r := (l.foldl (fun l u => placeTarget u l) []).foldl (fun (ds : Dev × List Pkt) u => ds.1.relayAdmit k ds.2 u) (d.swapCharge k, [])
    (r.1.relayStarts k r.2).swapCharge k

/-- The device once every verdict still to come is made: which relay units stand is known before their re-encryption, since
each verdict falls before its unit's start (R102, R144, R189; log entry 63). -/
def Dev.foreseen (d : Dev) : Dev :=
  d.ports.sfs.foldl (fun d v => d.sfVerdict v) (d.ports.verdicts.foldl (fun d v => d.frameVerdict v false) d)

/-- Relay units that Outbound pipe k re-encrypts in the beat under way, in the order of R96: those in its relay queue and
those still to be pushed into it, but for the ones whose verdict fails (R32, R102, R103, R390). -/
def Dev.relayDue (d : Dev) (k : Nat) : List Pkt :=
  let due := fun (u : Pkt) => !u.read && u.beat + 3 ≤ d.beat
  let l := (d.relayQ k).filter due ++ d.loft.toPush.flatMap fun (e : Nat × List Pkt) =>
    if e.1 < 8 then e.2.filter fun u => u.pipe == 16 && drayOf u.egress == k && due u else []
  if l.isEmpty then [] else
  let w := d.foreseen
  (l.filter fun u => w.unitWaits u).foldl (fun l u => placeRelay u l) []

/-- The Outbound pipe of Dray k processes the beat's units (R87, R96). -/
def Dev.outbound (d : Dev) (k : Nat) (err : List (Nat × PnErr)) : Dev :=
  if 4 ≤ k || d.still || d.preRun then d else
  let d := { d with tbm := { d.tbm with used := tputN d.tbm.used (24 + k) 1 } }.pnFlips err
  let r := (d.relayDue k).foldl (fun (ds : Dev × List Pkt) u => ds.1.relayAdmit k ds.2 u) (d, [])
  let d := r.1.relayStarts k (r.2.foldl (fun l u => placeTarget u l) [])
  if !((d.domain (obDom k)).state == .on || (d.domain (obDom k)).state == .draining) then d else
  let d := { d with loft := { d.loft with relayNext := tputN d.loft.relayNext (4 + k) (d.beat * 1200) } }
  (d.arrivalsOf (d.beat - 2) fun a => !isLine a.port && drayOf a.port == k && !a.taken && 2 ≤ d.beat).foldl
    (fun d a => d.obUnit a) d

/-! The order of one CCLK (R397). A command of the CCLK first makes what comes before it in that order and is due (log entry
66). -/

/-- Step 1 of R397: the verdicts due by the CCLK under way are made. -/
def Dev.dueVerdicts (d : Dev) : Dev :=
  if d.still then d else
  let d := (d.ports.verdicts.filter fun v => v.at_ ≤ d.now).foldl (fun d v => d.frameVerdict v false) d
  (d.ports.sfs.filter fun v => v.at_ ≤ d.now).foldl (fun d v => d.sfVerdict v) d

/-- Steps 1 to 3 of R397 for a push into a queue of slot p: verdicts, then what leaves that queue in this CCLK, and what the line
ports have handed over (R391). -/
def Dev.leaves (d : Dev) (p : Nat) : Dev :=
  let d := d.dueVerdicts.packAll
  if d.thatchMode p then d.releaseDrop p else (d.transmit p).releaseDrop p

/-! Pushes. -/

/-- Another unit that is to be pushed into the same egress queue in this CCLK and goes first (R387, R688). -/
def Dev.pushBlocked (d : Dev) (u : Pkt) : Bool :=
  tget d.loft.lastPush (queueOf u) == some d.now ||
  d.loft.toPush.any fun e => e.2.any fun v =>
    v.pushAt ≤ d.now && v.pipe != 16 && v.held != 0 && queueOf v == queueOf u &&
    keyBefore (entryKey (.unit v)) (entryKey (.unit u))

/-- Key of Inbound pipe k's pushes into relay queue g among the pushes of a CCLK. -/
def relayPushKey (g k : Nat) : Nat := 512 + 8 * g + k

/-- A relay queue takes one push from each Inbound pipe in a CCLK, in order of ingress line port (R397). -/
def Dev.relayBlocked (d : Dev) (k : Nat) (u : Pkt) : Bool :=
  tget d.loft.lastPush (relayPushKey (drayOf u.egress) k) == some d.now ||
  d.loft.toPush.any fun e => e.1 < 8 && e.2.any fun v =>
    v.pushAt ≤ d.now && v.pipe == 16 && drayOf v.egress == drayOf u.egress && relayBefore v u &&
    tget d.loft.lastPush (relayPushKey (drayOf v.egress) e.1) != some d.now

/-- The unit that pipe k, Outbound d or 4 + Inbound d, pushes in the CCLK under way. An Outbound pipe pushes its client units
in order (R688). -/
def Dev.pushChoice (d : Dev) (k : Nat) : Option Pkt :=
  let l := tgetD d.loft.toPush k []
  let l := if k < 4 then (l.filter fun u => isLine u.ingress) ++ (l.filter fun u => !isLine u.ingress).take 1 else l
  l.find? fun u => u.pushAt ≤ d.now && !(if u.pipe == 16 then d.relayBlocked k u else d.pushBlocked u)

/-- Client units that follow one pushed in CCLK t - 1 are pushed in CCLK t and the CCLK after it at the earliest (R688). -/
def pushAfter (t : Nat) : List Pkt → List Pkt
  | [] => []
  | u :: r => if isLine u.ingress then u :: pushAfter t r else { u with pushAt := max u.pushAt t } :: pushAfter (max u.pushAt t + 1) r

/-- The re-encryption under way: relay unit `u` leaves relay queue k and is written into its egress queue at 128 bytes per
CCLK; one that was dropped, or whose push finds no room in this CCLK's order, is not pushed here (R102, R103, R385, R390). -/
def Dev.reencrypt (d : Dev) (k : Nat) (u : Pkt) : Dev :=
  match (d.relayQ k).find? (sameUnit u) with
  | none => d
  | some v =>
    let t := d.now
    if u.held == 0 then d.relayPop k u fun _ => t + 1
    else
      let d := d.relayPop k u fun j => t + (min (256 * (j + 1)) v.held + 127) / 128
      let d := d.leaves u.egress
      if d.pushBlocked u then d.addPush k u else d.push u

/-- The next re-encryption of Outbound pipe k starts, when its CCLK has come (R103, R385, R390). -/
def Dev.relayStart (d : Dev) (k : Nat) : Dev :=
  if d.still || d.preRun || 4 ≤ k then d else
  let d := d.dueVerdicts.relayEarly k
  match tgetD d.loft.toPush (8 + k) [] with
  | [] => d
  | u :: rest =>
    if d.now < u.pushAt then d else
    { d with loft := { d.loft with toPush := tput d.loft.toPush [] (8 + k) rest } }.reencrypt k u

/-- Pipe k pushes unit u: its first byte is written (R391, R397). A relay unit goes to the relay queue of its egress port's
Dray; what leaves a queue in this CCLK leaves it first. -/
def Dev.pushUnit (d : Dev) (k : Nat) (u : Pkt) : Dev :=
  let rest := (tgetD d.loft.toPush k []).filter fun v => !sameUnit u v
  let rest := if k < 4 && !isLine u.ingress then pushAfter (d.now + 1) rest else rest
  let d := { d with loft := { d.loft with toPush := tput d.loft.toPush [] k rest } }
  if u.pipe == 16 then
    let g := drayOf u.egress
    { d with loft := { d.loft with lastPush := tset d.loft.lastPush (relayPushKey g k) d.now } }.relayPush g { u with pipe := k }
  else d.push u

/-- What leaves the queue that pipe k's next push enters, before that push (R397). -/
def Dev.beforePush (d : Dev) (k : Nat) : Dev :=
  match d.pushChoice k with
  | none => d
  | some u => if u.pipe == 16 then d.packAll.relayStart (drayOf u.egress) else d.leaves u.egress

/-- Pipe k, Outbound d or 4 + Inbound d, writes the first byte of its next unit (R391, R397, R688). -/
def Dev.pushNext (d : Dev) (k : Nat) : Dev :=
  if d.still then d else
  let d := d.beforePush k
  match d.pushChoice k with
  | none => d
  | some u => d.pushUnit k u

end Sys2Proof.Machine
end

