-- ==== Sys2Proof/Machine/Batch.lean ====
section
/-! DEFINITION. The checks of a seal (R36-R38, R45, R685 and every rule that refuses with cause VALUE), and the commit of
a batch at its apply boundary (R40, R47). -/

namespace Sys2Proof.Machine

/-! Checks of one written word. -/

/-- A value lies in a range. -/
def within (v lo hi : Nat) : Bool := lo ≤ v && v ≤ hi

/-- Every word of entry 0 of the coach table and of the policer profiles is refused (R202, R441). -/
def entryZero (k : Nat) : Bool :=
  (k / 0x10000000 == 3 || k / 0x10000000 == 9) && k % 0x10000000 / 64 == 0

/-- A class selection that R302 refuses. -/
def selBad (other : Bool) (v : Nat) : Bool := v == 3 || (other && v == 1)

/-- A Dray without table-memory channels can neither classify nor learn (R351, R605). -/
def Dev.classBad (d : Dev) (p v : Nat) : Bool :=
  !d.clsOn (p / 8) && (bit v 31 || bits v 27 26 ≤ 1 || bits v 25 24 ≤ 1 || bits v 23 22 ≤ 1)

/-- The fields of one written word lie in their stated ranges. -/
def Dev.wordOk (d : Dev) (k v : Nat) : Bool :=
  match regAt k with
  | none => false
  | some (r, ix) =>
    if entryZero k then false else
    match r with
    | .BEAT_SCHED => within (bits v 4 0) 4 16
    | .DRY_CPORT_CTL => bits v 30 29 != 3 && !(bits v 30 29 == 2 && bits v 15 0 == 0)
    | .CO_CTL => bits v 25 24 != 3 && bits v 10 0 ≤ 1024
    | .CO_ADV => bits v 27 16 < 1024
    | .CLS_BUDGET => within (bits v 11 8) 1 4 && bits v 7 0 ≤ 200
    | .CLS_PORT =>
      !selBad true (bits v 27 26) && !selBad false (bits v 25 24) && !selBad false (bits v 23 22) &&
      within (bits v 11 0) 1 4094 && !d.classBad (ix.headD 0) v
    | .CLS_LIMIT => bits v 22 0 ≤ 4194304
    | .CLS_DLEN4 => !bit v 31 || (within (bits v 30 24) 1 32 && within (bits v 23 19) 4 20)
    | .CLS_DLEN6 => !bit v 31 || (within (bits v 30 24) 1 64 && within (bits v 23 19) 4 20)
    | .EMR_WORD => ix.getD 1 0 != 2 || bits v 31 30 != 3
    | .DRQ_WORD => ix.getD 1 0 != 2 || bits v 31 30 != 3
    | .LOFT_RELAY_CFG | .LOFT_PORT_MAX | .LOFT_QLIM_U | .LOFT_QLIM_C => within (bits v 18 0) 1 262144
    | .LOFT_PORT_GUAR => bits v 18 0 ≤ 262144
    | .LOFT_PORT_CT => bits v 7 0 ≤ 144
    | .GATE_PORT_CFG => within (bits v 26 16) 1 1024
    | .GCL_INTERVAL => within (bits v 30 0) 1 1200000000
    | .POL_CIR | .POL_PIR => bits v 19 0 ≤ 800000
    | .POL_CBS | .POL_PBS => bits v 20 0 ≤ 1048576
    | .TIM_TB_CFG => bits v 29 28 != 3
    | .TIM_TB_ADJ_NS => bits v 29 0 ≤ 999999999
    | .TIM_TB_SUPV => bits v 31 16 != 0 && bits v 15 0 != 0
    | .TIM_PPSO_CFG => within (bits v 19 0) 1 999999
    | .TIM_PPSO_OFS =>
      let x := (v + 2 ^ 31) % 2 ^ 32
      within x (2 ^ 31 - 500000000) (2 ^ 31 + 499999999)
    | .PAIR_CFG => within (bits v 7 0) 4 120
    | .PST_SRC_REACT =>
      let s := ix.headD 0
      !srcReserved s && (srcBlockReset s || !(bit v 8 || bit v 3))
    | .PST_SRC_WIN => !srcReserved (ix.headD 0) && bits v 31 24 != 0 && bits v 19 0 != 0
    | .PWR_THERM => within (bits v 7 0) 85 120
    | .VLT_KEK_LIMIT => within (bits v 16 0) 1 65536
    | .BOOT_LIFE_WARN => v != 0
    | _ => true

/-! Checks of the settings that result. -/

/-- Coaches with a word of their own. -/
def Dev.coachesSet (d : Dev) : List Nat :=
  (d.words.filterMap fun (e : Nat × Word) =>
    if e.1 / 0x10000000 == 3 then some (e.1 % 0x10000000 / 64) else none).eraseDups

/-- The line ports that exist. -/
def Dev.linePorts (d : Dev) : List Nat := ((List.range 32).map (32 + ·)).filter d.exists_

/-- R80 and R86: Thatch line ports, their rates and their client ports; a THATCH_CPORT that names no port is refused as well
(log entry 52). -/
def Dev.thatchOk (d : Dev) : Bool :=
  let l := d.linePorts.filter d.thatchMode
  let direct := l.filter fun p => !d.relayRole p
  l.all (fun p => 2 ≤ d.modeOf p) &&
  direct.all (fun p =>
    let c := d.thatchClient p
    d.exists_ c && d.rate c == d.rate p &&
    !(direct.any fun p' => p' != p && d.thatchClient p' == c) &&
    -- R400: a cut-through Thatch client
    (d.flag .THP_CTL [portNo p] 31 || d.fld .LOFT_PORT_CT [c] 7 0 == 1))

/-- R172: relay coaches onto Thatch line ports. -/
def Dev.relayCoachOk (d : Dev) (cs : List Nat) : Bool :=
  let fits := fun p name => !(d.exists_ p && d.thatchMode p) || name == d.fld .THP_CTL [portNo p] 15 0
  cs.all (fun c =>
    let rc := d.fld .CO_ROUTE [c] 31 16
    !(d.flag .CO_CTL [c] 30 && d.exists_ (32 + d.fld .CO_CTL [c] 20 16) && d.relayRole (32 + d.fld .CO_CTL [c] 20 16)) || rc == 0 ||
    fits (32 + d.fld .CO_ROUTE [rc] 4 0) rc) &&
  d.linePorts.all (fun p =>
    !(d.relayRole p && d.thatchMode p) ||
    fits (32 + d.fld .DRY_LPORT_THATCH [drayOf p, portIx p] 20 16) (d.fld .DRY_LPORT_THATCH [drayOf p, portIx p] 15 0))

/-- R127, R204 and R226 of one coach. -/
def Dev.coachOk (d : Dev) (c : Nat) : Bool :=
  let used := d.flag .CO_CTL [c] 31 || d.flag .CO_CTL [c] 30
  let soft := d.rd .CO_SOFT_LIM [c]
  !(used && d.rd .CO_SCI [c, 4] == d.rd .CO_SCI [c, 5]) &&
  !(used && !d.flag .CO_CTL [c] 29 && d.fld .CO_CTL [c] 25 24 ≤ 1) &&
  soft != 0 && soft < d.rd .CO_HARD_LIM [c]

/-- Number of 1 bits. -/
def ones (n v : Nat) : Nat := ((List.range n).filter fun i => v.testBit i).length

/-- Numbers never rise. -/
def neverRises : List Nat → Bool
  | a :: b :: r => b ≤ a && neverRises (b :: r)
  | _ => true

/-- R305 and R306 for the TCAM of Dray k. -/
def Dev.tcamOk (d : Dev) (k : Nat) : Bool :=
  let l := tcamValid d.words k
  neverRises (l.map fun e => ones 160 (tcamVm d.words e.1).2) &&
  l.all fun e =>
    let act := bits e.2 30 29
    let c := bits e.2 15 0
    act != 3 && !(act == 0 && c == 0) && !(act == 1 && c != 0)

/-- R393: cells promised, and each guarantee under its maximum. -/
def Dev.loftOk (d : Dev) : Bool :=
  d.promised ≤ d.cTot && (List.range 64).all fun p => d.guar p ≤ d.fld .LOFT_PORT_MAX [p] 18 0

/-- R415 for a slot with GATE_EN = 1. -/
def Dev.gateOk (d : Dev) (p : Nat) : Bool :=
  !d.flag .GATE_PORT_CFG [p] 31 ||
  (let n := d.fld .GATE_PORT_CFG [p] 26 16
   let l := (List.range n).map fun i => d.fld .GCL_INTERVAL [1024 * p + i] 30 0
   within n 1 1024 && l.all (· != 0) && l.sum == d.gateCycle p && within (d.gateCycle p) 1 1200000000)

/-- R426 for every queue with a shaper word. -/
def Dev.shaperOk (d : Dev) : Bool :=
  (List.range 512).all fun q => !d.flag .GATE_QSHP [q] 31 || within (d.fld .GATE_QSHP [q] 19 0) 1 800000

/-- R427: CIR not above PIR, for every profile with a word of its own. -/
def Dev.policerOk (d : Dev) : Bool :=
  d.words.all fun (e : Nat × Word) =>
    e.1 / 0x10000000 != 9 ||
    (let p := e.1 % 0x10000000 / 64
     d.fld .POL_CIR [p] 19 0 ≤ d.fld .POL_PIR [p] 19 0)

/-- R444 and R459: increments and domains of the time bases. -/
def Dev.timeOk (d : Dev) : Bool :=
  (List.range 4).all (fun n => within (d.incSet n) 915801559968 916717819658) &&
  (List.range 4).all fun n => (List.range 4).all fun m =>
    !(n < m && d.flag .TIM_TB_CFG [n] 30 && d.flag .TIM_TB_CFG [m] 30 &&
      d.fld .TIM_TB_CFG [n] 15 8 == d.fld .TIM_TB_CFG [m] 15 8)

/-- ON of a domain 5-20 as set. -/
def Dev.pdOn (d : Dev) (x : Nat) : Bool := d.flag .PWR_DOM_CTL_SW [x - 5] 31

/-- R613: ports and pipes have their domains, and the Ridge stays on but in SOLO. -/
def Dev.powerOk (d : Dev) : Bool :=
  ((List.range 64).all fun p =>
    !(d.exists_ p && d.en p) || (d.pdOn (serdesDom p) && d.pdOn (obDom (drayOf p)) && d.pdOn (ibDom (drayOf p)))) &&
  (!((List.range 8).any fun i => d.pdOn (5 + i)) || (List.range 4).any d.bankOn) &&
  (d.flag .PWR_DOM_CTL_RDG [] 31 || d.pair.state == PairState.solo)

/-- Every rule about the settings that result holds (R685). -/
def Dev.settingsOk (d : Dev) : Bool :=
  let cs := d.coachesSet
  d.thatchOk && d.relayCoachOk cs && cs.all d.coachOk && (List.range 4).all d.tcamOk && d.loftOk &&
  (List.range 64).all d.gateOk && d.shaperOk && d.policerOk && d.timeOk && d.powerOk

/-! Checks against the settings before the batch. -/

/-- R77: a lane group's mode changes while a port of the group is enabled. -/
def Dev.modeOk (d d' : Dev) : Bool :=
  (List.range 64).all fun p => d.modeOf p == d'.modeOf p || !(d.exists_ p && d.en p)

/-- A batch writes the gate settings of slot P, or an entry of its list (R415). -/
def writesGate (es : List Entry) (p : Nat) : Bool :=
  es.any fun e => match e with
    | .word k _ => match regAt k with
      | some (.GATE_PORT_CFG, [q]) | some (.GATE_PORT_CYCLE, [q]) | some (.GATE_PORT_BASE_LO, [q])
      | some (.GATE_PORT_BASE_HI, [q]) => q == p
      | some (.GCL_GATES, [i]) | some (.GCL_INTERVAL, [i]) => i / 1024 == p
      | _ => false
    | _ => false

/-- The batch writes INC of a time base that the discipline owns (R444). -/
def Dev.incOwned (d : Dev) (es : List Entry) : Bool :=
  es.any fun e => match e with
    | .word k _ => match regAt k with
      | some (.TIM_TB_INC_LO, [n]) | some (.TIM_TB_INC_HI, [n]) => d.fld .TIM_TB_CFG [n] 29 28 == 2
      | _ => false
    | _ => false

/-- Entries of the request table `r` that a batch writes, in table order. -/
def requestsOf (r : Reg) (es : List Entry) : List Nat :=
  let l := es.filterMap fun e => match e with
    | .word k _ => match regAt k with | some (r', [i, _]) => if r' == r then some i else none | _ => none
    | _ => none
  (List.range 256).filter l.contains

/-- Requests of a batch against Dray k (R321): exact-match requests of its client ports and every data request. -/
def requestCount (es : List Entry) (k : Nat) : Nat :=
  let d := applyWords [] es
  let op := fun (r : Reg) i => bits (wordAt d (r.key [i, 2])) 31 30
  ((requestsOf .EMR_WORD es).filter fun i =>
    op .EMR_WORD i != 0 && bits (wordAt d (Reg.key .EMR_WORD [i, 2])) 20 16 / 8 == k).length +
  ((requestsOf .DRQ_WORD es).filter fun i => op .DRQ_WORD i != 0).length

/-- R320: each data request names an enabled length and has no bit of v below it. -/
def Dev.dataRequestsOk (d : Dev) (es : List Entry) : Bool :=
  let t := applyWords [] es
  (requestsOf .DRQ_WORD es).all fun i =>
    let w := fun j => wordAt t (Reg.key .DRQ_WORD [i, j])
    let v6 := bit (w 2) 29
    let len := bits (w 2) 28 22
    let v := if v6 then w 0 + w 1 * 2 ^ 32 else w 0
    bits (w 2) 31 30 == 0 ||
    ((List.range 8).any (fun x =>
        let r := d.dlen v6 x
        bit r 31 && bits r 30 24 == len) &&
      v % 2 ^ (dataBits v6 - len) == 0)

/-- R321: room for every request in the HOST part of each Dray's overflow store. -/
def Dev.requestsFit (d : Dev) (es : List Entry) : Bool :=
  (List.range 4).all fun k =>
    ((d.dray k).ovf.filter fun e => isHost e.2).length +
    (d.batch.sealed.map fun b => requestCount b.entries k).sum + requestCount es k ≤ 2048

/-- R415: the base time of a gate that a batch with apply-beat `a` writes does not lie after it, in the settings that result. -/
def Dev.basesOk (d : Dev) (es : List Entry) (a : Nat) : Bool :=
  (List.range 64).all fun p => !writesGate es p || d.gateBase p ≤ a * 1200

/-- The rules about the settings that result from a batch with apply-beat `a`, `old` being those it is applied to (R685). -/
def Dev.resultOk (old : Dev) (es : List Entry) (a : Nat) : Bool :=
  let new := old.withEntries es
  old.modeOk new && new.settingsOk && !new.incOwned es && new.dataRequestsOk es && new.basesOk es a

/-- The rules about resulting settings hold at every later commit already sealed (R685). -/
def laterOk : List Batch → Dev → Bool
  | [], _ => true
  | b :: r, d => d.resultOk b.entries b.apply && laterOk r (d.withEntries b.entries)

/-- Every check of VALUE, for a batch with apply-beat `a` (R46, R685). -/
def Dev.valuesOk (d : Dev) (es : List Entry) (a : Nat) : Bool :=
  let old := d.before a
  es.all (fun e => match e with | .word k v => d.wordOk k v.toNat | .dlv _ => true) &&
  old.resultOk es a && d.requestsFit es && laterOk (d.waitingPast a) (old.withEntries es)

/-! R38. -/

/-- The batch sets EN = 1 on a port; `d` holds the settings that result, and a slot that is no port there is none (R76). -/
def Dev.enables (d : Dev) (es : List Entry) : Bool :=
  es.any fun e => match e with
    | .word k v => match regAt k with
      | some (.DRY_CPORT_CTL, [g, i]) => v.getLsbD 31 && d.exists_ (8 * g + i)
      | some (.DRY_LPORT_CTL, [g, i]) => v.getLsbD 31 && d.exists_ (32 + 8 * g + i)
      | _ => false
    | _ => false

/-- FIXED_LAT as set. -/
def Dev.fixedLat (d : Dev) : Nat := d.fld .BEAT_SCHED [] 4 0

/-- L of a batch that lowers FIXED_LAT, against the settings in effect at the seal (R38, R685; log entry 37). -/
def Dev.lowersLat (d : Dev) (es : List Entry) : Option Nat :=
  if (d.withEntries es).fixedLat < d.fixedLat then some d.fixedLat else none

/-- The rules of R38 hold. -/
def Dev.latOk (d : Dev) (es : List Entry) (a : Nat) : Bool :=
  let opens := ((d.before a).withEntries es).enables es
  let lower := match d.lowersLat es with
    | none => true
    | some _ =>
      (List.range 64).all (fun p => !(d.exists_ p && d.en p)) &&
      !(d.batch.sealed.any fun b => (d.before b.apply).enables b.entries) && !opens
  lower && (!opens || d.batch.latUntil ≤ a)

/-! The seal. -/

/-- m of R45. -/
def Dev.minLead (d : Dev) : Nat := if d.pair.state == PairState.solo then 2 else 3

/-- The apply-beat that a seal asks for (R45). -/
def Dev.sealBeat (d : Dev) (mode : Bool) : Nat :=
  if mode then d.rd .BEAT_APPLY_LO + d.rd .BEAT_APPLY_HI * 2 ^ 32
  else d.beat + max (d.fld .BEAT_APPLY_LEAD [] 7 0) d.minLead

/-- The outcome of a seal (R45). -/
def Dev.sealResult (d : Dev) (a : Nat) : SealResult :=
  if !d.clk.run || !d.leads then .notReady
  else if d.batch.ovf then .overflow
  else if !d.valuesOk d.batch.open_ a then .value
  else if !d.latOk d.batch.open_ a then .latDec
  else if a < d.beat + d.minLead then .late
  else if d.beat + 16777216 < a then .horizon
  else if 8 ≤ d.batch.sealed.length then .full
  else .accepted

/-- A batch is accepted with apply-beat `a` (R38, R45, R46). -/
def Dev.acceptBatch (d : Dev) (a : Nat) : Dev :=
  let q := (d.batch.lastSeq + 1) % 256
  let until_ := match d.lowersLat d.batch.open_ with
    | some l => max d.batch.latUntil (a + l)
    | none => d.batch.latUntil
  { d with batch := { d.batch with
      open_ := [], ovf := false, sealed := d.batch.sealed ++ [Batch.mk q a d.batch.open_], lastSeq := q, lastRes := .accepted,
      lastBeat := a, latUntil := until_ } }.pmcEvent 3 1

/-- A seal is refused: the batch stays open or is discarded (R46, R49). -/
def Dev.refuseSeal (d : Dev) (r : SealResult) : Dev :=
  let keeps := r == SealResult.late || r == SealResult.full || r == SealResult.horizon
  let d := if keeps then d else d.discardOpen
  ({ d with batch := { d.batch with lastRes := r } }.irq .BEAT_INT_STAT 2).pmcEvent 3 3

/-! The commit. -/

/-- A committed delivery takes effect, on the settings that result from its boundary (R212, R276). -/
def Dev.applyDelivery (d : Dev) (e : Entry) : Dev :=
  match e with
  | .word _ _ => d
  | .dlv v => if v.kind == 1 then d.loadDelivery v else d.updateCk v

/-- A coach whose KEYSRC, CK_INDEX or kind a commit changed restarts (R215). -/
def Dev.coachChanged (d old : Dev) (c : Nat) : Dev :=
  if d.kind c != old.kind c || d.flag .CO_CTL [c] 29 != old.flag .CO_CTL [c] 29 || d.ckIndex c != old.ckIndex c then
    d.modCo c fun x => { x with restart := true }
  else d

/-- Coaches that name policer profile p. -/
def Dev.policed (d : Dev) (p : Nat) : List Nat := d.coachesSet.filter fun c => p != 0 && d.fld .CO_ADV [c] 27 16 == p

/-- Units already queued that no window of the new list can start are removed, each with a marker (R421). -/
def Dev.removeOversize (d : Dev) (p : Nat) : Dev :=
  forEach 8 d fun d tc =>
    let q := 8 * p + tc
    (d.qUnits q).foldl (fun (d : Dev) (u : Pkt) =>
      if d.oversize u.egress u.tc u.held then (d.removeUnit q u).oversizeDrop q u else d) d

/-- What a committed word does by itself beside being stored, in the order of the words: the fields that read 0, a Bloom and
table flush, a shaper's fill, an increment, an adjustment; `t` is the CCLK (R16, R235, R337, R424, R444, R445). -/
def Dev.wordEffect (t : Nat) (d : Dev) (k : Nat) : Dev :=
  match regAt k with
  | some (.CO_KEY, [c]) =>
    if d.flag .CO_KEY [c] 31 then (d.wrFld .CO_KEY [c] 31 31 0).modCo c fun x => { x with advReq := true } else d
  | some (.VLT_CK_CTL, _) =>
    if d.flag .VLT_CK_CTL [] 31 then
      let d := d.wrFld .VLT_CK_CTL [] 31 31 0
      { d with vault := { d.vault with ckAsked := true } }
    else d
  | some (.CLS_FLUSH, _) =>
    let m := d.fld .CLS_FLUSH [] 3 0
    forEach 4 (d.wr .CLS_FLUSH [] 0) fun d k => if bit m k then d.flushDray k else d
  | some (.GATE_QSHP, [q]) => d.shaperReset q t
  | some (.TIM_TB_INC_LO, [b]) | some (.TIM_TB_INC_HI, [b]) => d.takeInc b
  | some (.TIM_TB_ADJ_CTL, [b]) =>
    let w := d.rd .TIM_TB_ADJ_CTL [b]
    let d := if bit w 31 then d.tbAdjust b else d
    let d := if bit w 30 then d.tbKeep b (t / 1200) else d
    d.wrFld .TIM_TB_ADJ_CTL [b] 31 30 0
  | _ => d

/-- Keys that entries write, each once, in the order first written. -/
def keysOf (es : List Entry) : List Nat :=
  (es.filterMap fun e => match e with | .word k _ => some k | .dlv _ => none).eraseDups

/-- What the words of one batch do once they are stored, and its table requests (R47, R322). -/
def Dev.wordsDone (d : Dev) (t : Nat) (es : List Entry) : Dev :=
  let d := (keysOf es).foldl (fun d k => Dev.wordEffect t d k) d
  let d := (requestsOf .EMR_WORD es).foldl (fun d e => d.emRequest e) d
  (requestsOf .DRQ_WORD es).foldl (fun d e => d.dataRequest e) d

/-- The words of one batch take effect (R47). -/
def Dev.putEntries (d : Dev) (t : Nat) (es : List Entry) : Dev := (d.withEntries es).wordsDone t es

/-- Coaches whose profile number one of these batches, committed in turn, changes (R431). -/
def Dev.policerMoves (d : Dev) : List (List Entry) → List Nat
  | [] => []
  | es :: r =>
    let e := d.withEntries es
    ((keysOf es).filterMap fun k => match regAt k with
      | some (.CO_ADV, [c]) => if e.fld .CO_ADV [c] 27 16 != d.fld .CO_ADV [c] 27 16 then some c else none
      | _ => none) ++ Dev.policerMoves e r

/-- Policer buckets that commits reset at CCLK t: of a written profile entry, then of the coaches `moved` whose profile number
changed (R431). -/
def Dev.policerResets (d : Dev) (t : Nat) (ks moved : List Nat) : Dev :=
  let ps := (ks.filterMap fun k => if k / 0x10000000 == 9 then some (k % 0x10000000 / 64) else none).eraseDups
  let d := ps.foldl (fun d p =>
    (d.policed p).foldl (fun d c => d.policerReset c t (d.flag .POL_CIR [p] 31)) d) d
  moved.foldl (fun (d : Dev) c => d.policerReset c t true) d

/-- Slot p requests one-step insertion and is not granted it (R464). -/
def Dev.stepLost (d : Dev) (p : Nat) : Bool := d.flag .TIM_PTP_PORT [p] 30 && !d.oneStep p

/-- Requests of one-step insertion that the commits leave ungranted show their loss: newly written ones, and those that a lower slot's
request displaces; `old` is the device before the commits (R464). -/
def Dev.oneStepLost (d old : Dev) (ks : List Nat) : Dev :=
  if (List.range 64).any fun p => d.stepLost p && (!old.stepLost p || ks.contains (Reg.key .TIM_PTP_PORT [p]))
  then d.irq .TIM_INT_STAT 10 else d

/-- The gates whose list or settings a batch writes remove what no window fits (R421). -/
def Dev.gateCommit (d : Dev) (es : List Entry) : Dev :=
  forEach 64 d fun d p => if writesGate es p then d.removeOversize p else d

/-- Link training is no longer complete on a port whose LT_EN is 0 (R78, R115). -/
def Dev.trainingOff (d : Dev) : Dev :=
  forEach 64 d fun d p => if d.ltEn p then d else d.setPort p { d.port p with ltDone := false }

/-- A connectivity-key commit that the boundary's batches ask for (R280). -/
def Dev.ckAsk (d : Dev) : Dev :=
  if d.vault.ckAsked then { d with vault := { d.vault with ckAsked := false } }.ckCommit else d

/-- What follows from the settings that result from commits at CCLK t, `old` being those before them and `moved` the coaches whose
profile number changed: deliveries, the key commit, buckets, time bases, gates, training (R78, R212, R276, R280, R421, R431, R453, R464). -/
def Dev.commitEnd (d old : Dev) (t : Nat) (es : List Entry) (moved : List Nat) : Dev :=
  let ks := keysOf es
  let d := (es.foldl (fun d e => d.applyDelivery e) d).ckAsk
  let d := d.policerResets t ks moved
  let d := forEach 4 d fun d b => if ks.contains (Reg.key .TIM_TB_CFG [b]) then d.tbConfig b (old.rd .TIM_TB_CFG [b]) else d
  ((d.trainingOff).gateCommit es).oneStepLost old ks

/-- Coaches whose kind, KEYSRC or CK_INDEX the boundary's commits changed (R215). -/
def Dev.coachesChanged (d old : Dev) (ks : List Nat) : Dev :=
  ks.foldl (fun d k => match regAt k with
    | some (.CO_CTL, [c]) | some (.CO_KEY, [c]) => d.coachChanged old c
    | _ => d) d

/-- Everything that `es` changes at CCLK t (R47). -/
def Dev.commitEntries (d : Dev) (t : Nat) (es : List Entry) : Dev :=
  ((d.putEntries t es).coachesChanged d (keysOf es)).commitEnd d t es (d.policerMoves [es])

/-- A host batch's words are committed (R47, R49). -/
def Dev.commitBatch (d : Dev) (n : Nat) (b : Batch) : Dev :=
  let d := d.putEntries (n * 1200) b.entries
  ({ d with batch := { d.batch with any := true, doneSeq := b.seq } }.irq .BEAT_INT_STAT 1).pmcEvent 3 2

/-- Step 4 of R40: batches with apply-beat n, in seal order. -/
def Dev.commitAll (d : Dev) (n : Nat) : Dev :=
  let l := d.waitingTo n
  if l.isEmpty then d else
  let old := d
  let d := { d with batch := { d.batch with sealed := d.batch.sealed.filter fun b => n < b.apply } }
  let d := l.foldl (fun d b => d.commitBatch n b) d
  let es := l.flatMap (·.entries)
  (d.coachesChanged old (keysOf es)).commitEnd old (n * 1200) es (old.policerMoves (l.map (·.entries)))

end Sys2Proof.Machine
end

