-- ==== Sys2Proof/Machine/Change.lean ====
section
/-! DEFINITION. The covered state of the pair: its parts by digest source and by shingle, the change records between two states of
it (R494), and a shingle's installation under the device's own change records (R513-R515). The numbers of shingles are internal:
those here are the model's own (log entry 72). -/

namespace Sys2Proof.Machine

/-! Covered state. -/

/-- A unit as the Loft's ledger holds it: without its bytes (R513). -/
def bareUnit (u : Pkt) : Pkt := { u with bytes := [], ghost := false }

/-- A queue entry without its bytes. -/
def bareEntry : QEntry → QEntry
  | .unit u => .unit (bareUnit u)
  | .gap due ingress offset index count => .gap due ingress offset index count

/-- The covered state as it stands (R494). -/
def Dev.covered (d : Dev) : Covered :=
  { beat := d.clk.count, open_ := d.batch.open_, sealed := d.batch.sealed, words := d.words, coach := d.coach.dyn,
    probe := d.coach.probe, cls := d.cls, lines := d.tbm.lines, queues := d.loft.queues, relay := d.loft.relay,
    toPush := d.loft.toPush, hold := d.loft.hold, fill := d.loft.fill, tb := d.time.tb, ck := d.vault.ck, drv := d.vault.drv,
    drvWait := d.vault.drvWait, floor := d.floor.value }

/-- The settings of a store whose keys `p` takes: RWS bits that do not stand at their reset values (R494, R513). -/
def settingsOf (ws : Tab Word) (p : Nat → Bool) : List (Nat × Word) :=
  ws.filterMap fun (e : Nat × Word) =>
    if p e.1 && rwsMask e.1 != 0 then some (e.1, BitVec.ofNat 32 (e.2.toNat &&& rwsMask e.1)) else none

/-- The source that covers the setting at a key: that of its block, or source 0 where the block has none (R494). -/
def wordSource (k : Nat) : Nat :=
  let entry := k % 0x10000000 / 64
  if 0x10000000 ≤ k then [0, 1 + entry / 8, 1 + entry / 8, 11, 0, 5, 5, 5, 8, 8].getD (k / 0x10000000) 0
  else if within k 0x20000 0x2FFFF then 10
  else if within k 0x100000 0x1FFFFF then 1 + (k - 0x100000) / 0x40000
  else if within k 0x200000 0x27FFFF then 5
  else if within k 0x280000 0x2FFFFF then 6
  else if within k 0x300000 0x37FFFF then 7
  else if within k 0x380000 0x3FFFFF then 8
  else if within k 0x400000 0x40FFFF then 9
  else 0

/-- Line Dray of the egress port of a coach (R228). -/
def Covered.egrDray (c : Covered) (n : Nat) : Nat := bits (wordAt c.words (Reg.key .CO_ROUTE [n])) 4 0 / 8

/-- The PN counter and the policer buckets of a coach, which its egress Dray holds (R228, R428). -/
def counterPart (x : CoachDyn) : CoachDyn :=
  { CoachDyn.init with hi := x.hi, lo := x.lo, mirror := x.mirror, tc := x.tc, tp := x.tp, tLast := x.tLast }

/-- The running state of a coach but for its key slots and for errors not found yet (R513). -/
def runningPart (x : CoachDyn) : CoachDyn := { x with slotA := none, slotB := none, pnErr := [] }

/-- Entries of a table whose keys lie in a run of `size` keys. -/
def runOf {α : Type} (size run : Nat) (t : Tab α) : Tab α := t.filter fun (e : Nat × α) => e.1 / size == run

/-- Keys in a run of 4,096 bytes of position states, generation tags, overflow entries, cache lines, move records and Bloom bits (R317). -/
def posRun : Nat := 16384
def genRun : Nat := 4096
def ovfRun : Nat := 128
def cacheRun : Nat := 256
def movesRun : Nat := 256
def bloomRun : Nat := 32768

/-- The classification state of Dray k, each store as one part. -/
def drayParts (k : Nat) (x : ClsDray) : List Shingle :=
  [.pos k 0 x.pos, .gen k 0 x.gen, .ovf k 0 x.ovf, .cache k 0 x.cache, .moves k 0 x.moves, .bloom k 0 x.bloom, .steps k x.steps]

/-- The state that digest source b covers (R494). -/
def Covered.sourceParts (c : Covered) (b : Nat) : List Shingle :=
  .words b (settingsOf c.words fun k => wordSource k == b) :: match b with
  | 0 => [.beat c.beat, .batch c.open_ c.sealed]
  | 5 => c.cls.flatMap fun (e : Nat × ClsDray) => drayParts e.1 e.2
  | 6 => c.lines.map fun (e : Nat × BitVec 240) => .line (e.1 / 2 ^ 22) (e.1 % 2 ^ 22) e.2
  | 7 => (c.queues.map fun (e : Nat × List QEntry) => .ledger e.1 (e.2.map bareEntry)) ++
    (c.relay.map fun (e : Nat × List Pkt) => .relay e.1 (e.2.map bareUnit)) ++
    (c.toPush.map fun (e : Nat × List Pkt) => .toPush e.1 (e.2.map bareUnit)) ++ [.cells c.hold]
  | 8 => c.fill.map fun (e : Nat × (Int × Nat)) => .fill e.1 (some e.2)
  | 9 => c.tb.map fun (e : Nat × TimeBase) => .tb e.1 e.2
  | 10 => (c.coach.map fun (e : Nat × CoachDyn) => .slots e.1 e.2.slotA e.2.slotB) ++
    (c.probe.map fun (e : Nat × Probe) => .probe e.1 (some e.2)) ++
    (c.ck.map fun (e : Nat × BitVec 256) => .ck e.1 (some e.2)) ++ [.drv c.drv c.drvWait, .floor c.floor]
  | 11 => c.coach.map fun (e : Nat × CoachDyn) => .coach e.1 (runningPart e.2)
  | n => (c.coach.filter fun (e : Nat × CoachDyn) => n == 1 + c.egrDray e.1).map fun (e : Nat × CoachDyn) => .coach e.1 (counterPart e.2)

/-- The digest of source b: the CRC-64 of the change records that take its state from `old` to `new` (R494). -/
def digestOf (old new : Covered) (b : Nat) : BitVec 64 :=
  BitVec.ofNat 64 (crc64 (Config.changeRecords (old.sourceParts b) (new.sourceParts b)))

/-! Shingles. -/

/-- Numbers of the runs of 4,096 bytes of the register space: BAR0, then the tables that hold settings (R513, R640). -/
def wordChunks : List Nat :=
  List.range 0x480 ++ (List.range 10).flatMap fun t =>
    match tabShape t with
    | some (n, _) => if t == 4 then [] else (List.range ((n * 64 + 4095) / 4096)).map (t * 0x10000 + ·)
    | none => []

/-- Numbers `n` from `a` on. -/
def numbers (a n : Nat) : List Nat := (List.range n).map (a + ·)

/-- Shingle numbers of a kind of classification state: kind j, 0-6, of Dray k from this number on. -/
def clsBase (j k : Nat) : Nat := 0x400000 + (j * 4 + k) * 0x1000

/-- Shingle numbers of the classification state: runs of the four Drays by kind (R317). -/
def clsNumbers : List Nat :=
  (List.zip (List.range 7) [2304, 2304, 128, 256, 8, 512, 1]).flatMap fun (e : Nat × Nat) =>
    (List.range 4).flatMap fun k => numbers (clsBase e.1 k) e.2

/-- Number of the shingle of a line, by line key: 128 consecutive lines (R513). -/
def lineShingle (key : Nat) : Nat := 0x1000000 + key / 128

/-- A shingle of key material: key slots, probe slots or CK table entries (R513). -/
def isKeyShingle (x : Nat) : Bool := within x 0x200000 0x3FFFFF

/-- The shingles of a pass over a covered state, in the order of R513: coach table and settings, key material while the partner is
trusted, classification state, lines that hold an entry, and the rest. -/
def passOrder (trusted : Bool) (c : Covered) : List Nat :=
  wordChunks ++ numbers 0x100000 2048 ++
  (if trusted then numbers 0x200000 2048 ++ numbers 0x300000 128 ++ [0x310000] else []) ++ clsNumbers ++
  (c.lines.map fun (e : Nat × BitVec 240) => lineShingle e.1).eraseDups ++
  numbers 0x500000 7 ++ numbers 0x600000 512 ++ numbers 0x700000 16 ++ numbers 0x800000 16

/-- The content of a shingle in a covered state, its parts always the same and in the same order (R513). -/
def Covered.shingle (c : Covered) (x : Nat) : List Shingle :=
  let k := x % 0x100000
  let group := fun (n : Nat) => (List.range n).map (k * n + ·)
  let co := fun (n : Nat) => tgetD c.coach n .init
  if 0x1000000 ≤ x then
    (List.range 128).map fun i =>
      let a := (x - 0x1000000) * 128 + i
      .line (a / 2 ^ 22) (a % 2 ^ 22) (tgetD c.lines a 0)
  else match x / 0x100000 with
  | 0 => [.words k (settingsOf c.words fun a => a / 4096 == k)]
  | 1 => (group 32).map fun n => .coach n (runningPart (co n))
  | 2 => (group 32).map fun n => .slots n (co n).slotA (co n).slotB
  | 3 => if k < 0x10000 then (group 32).map fun i => .ck i (tget c.ck i) else (List.range 4).map fun d => .probe d (tget c.probe d)
  | 4 =>
    let d := k / 0x1000 % 4
    let run := k % 0x1000
    let v := tgetD c.cls d .init
    match k / 0x4000 with
    | 0 => [.pos d run (runOf posRun run v.pos)]
    | 1 => [.gen d run (runOf genRun run v.gen)]
    | 2 => [.ovf d run (runOf ovfRun run v.ovf)]
    | 3 => [.cache d run (runOf cacheRun run v.cache)]
    | 4 => [.moves d run (runOf movesRun run v.moves)]
    | 5 => [.bloom d run (runOf bloomRun run v.bloom)]
    | _ => [.steps d v.steps]
  | 5 => if k < 4 then [.tb k (tgetD c.tb k .init)] else if k == 4 then [.floor c.floor]
    else if k == 5 then [.drv c.drv c.drvWait] else [.cells c.hold]
  | 6 => [.ledger k ((tgetD c.queues k []).map bareEntry)]
  | 7 => (group 32).map fun q => .fill q (tget c.fill q)
  | _ => if k < 4 then [.relay k ((tgetD c.relay k []).map bareUnit)]
    else [.toPush (k - 4) ((tgetD c.toPush (k - 4) []).map bareUnit)]

/-- Bits [31:0] of the CRC-64 of the change records that take a shingle from one content to another (R514). -/
def changeCrc (old new : List Shingle) : Word := BitVec.ofNat 32 (crc64 (Config.changeRecords old new))

/-- The shingles that a device changed between two states, with their CRC words (R514). -/
def changesOf (old new : Covered) : List (Nat × Word) :=
  (passOrder true old ++ passOrder true new).eraseDups.filterMap fun x =>
    let a := old.shingle x
    let b := new.shingle x
    if a == b then none else some (x, changeCrc a b)

/-! The device's own change records on top of a given content (R514): `a` is what the device held at the taking boundary, `b` what
it holds now, `g` what the active held at the taking boundary. -/

/-- A record that writes a value. -/
def patched {α : Type} [DecidableEq α] (a b g : α) : α := if a = b then g else b

/-- A record that adds to or takes from a value. -/
def bumped (a b g : Nat) : Nat := g + b - a

/-- Records that write entries of a table. -/
def patchTab {α : Type} [DecidableEq α] (a b g : Tab α) : Tab α :=
  ((a.map (·.1)) ++ b.map (·.1)).eraseDups.foldl (fun g k =>
    if tget a k = tget b k then g else match tget b k with | some v => tset g k v | none => tdel g k) g

/-- Records that push entries onto a list and take some from it. -/
def patchList {α : Type} [DecidableEq α] (a b g : List α) : List α :=
  (g.filter fun x => !(a.contains x && !b.contains x)) ++ b.filter fun x => !a.contains x && !g.contains x

/-- The records of a coach: PN counter and buckets count, everything else is written. -/
def patchCoach (a b g : CoachDyn) : CoachDyn :=
  let pn := fun (x : CoachDyn) => x.hi * 65536 + x.lo
  let t := if pn a ≤ pn b then bumped (pn a) (pn b) (pn g) else pn b
  { sw := patched a.sw b.sw g.sw, stage := patched a.stage b.stage g.stage, slotA := none, slotB := none,
    hi := t / 65536, lo := t % 65536, mirror := patched a.mirror b.mirror g.mirror, chock := patched a.chock b.chock g.chock,
    cause := patched a.cause b.cause g.cause, grace := patched a.grace b.grace g.grace, advPend := patched a.advPend b.advPend g.advPend,
    probe := patched a.probe b.probe g.probe, lastNxt := patched a.lastNxt b.lastNxt g.lastNxt,
    began := patched a.began b.began g.began, advReq := patched a.advReq b.advReq g.advReq,
    hitHard := patched a.hitHard b.hitHard g.hitHard, mirBad := patched a.mirBad b.mirBad g.mirBad, pnErr := [],
    errDue := patched a.errDue b.errDue g.errDue, verified := patched a.verified b.verified g.verified,
    jump := patched a.jump b.jump g.jump, restart := patched a.restart b.restart g.restart,
    tc := bumped a.tc b.tc g.tc, tp := bumped a.tp b.tp g.tp, tLast := patched a.tLast b.tLast g.tLast }

/-- The records of a time base: its adjustments add to the value, its settings are written. -/
def patchTb (a b g : TimeBase) : TimeBase :=
  let t := max b.asOf g.asOf
  { b with
    val := (tbValue g t + (tbWrap + tbValue b t - tbValue a t)) % tbWrap, asOf := t,
    inc := patched a.inc b.inc g.inc, en := patched a.en b.en g.en, state := patched a.state b.state g.state,
    last := patched a.last b.last g.last, prevE := patched a.prevE b.prevE g.prevE, perr := patched a.perr b.perr g.perr,
    ppsStep := patched a.ppsStep b.ppsStep g.ppsStep, ppsInc := patched a.ppsInc b.ppsInc g.ppsInc,
    next := patched a.next b.next g.next }

/-- The records of a shaper fill: the charges since the taking boundary. -/
def patchFill (a b g : Option (Int × Nat)) : Option (Int × Nat) :=
  if a = b then g else
  match b with
  | none => none
  | some y => some ((g.getD (0, 0)).1 + y.1 - (a.getD (0, 0)).1, y.2)

/-- A part of a shingle as given, under the device's own change records (R514). -/
def patchPart (a b g : Shingle) : Shingle :=
  match a, b, g with
  | .words _ a, .words _ b, .words k g => .words k (patchTab a b g)
  | .coach _ a, .coach _ b, .coach c g => .coach c (patchCoach a b g)
  | .slots _ a a', .slots _ b b', .slots c g g' => .slots c (patched a b g) (patched a' b' g')
  | .ck _ a, .ck _ b, .ck i g => .ck i (patched a b g)
  | .probe _ a, .probe _ b, .probe d g => .probe d (patched a b g)
  | .pos _ _ a, .pos _ _ b, .pos d r g => .pos d r (patchTab a b g)
  | .gen _ _ a, .gen _ _ b, .gen d r g =>
    .gen d r (((a.map (·.1)) ++ b.map (·.1)).eraseDups.foldl (fun g k =>
      tputN g k ((tgetD g k 0 + 256 + tgetD b k 0 - tgetD a k 0) % 256)) g)
  | .ovf _ _ a, .ovf _ _ b, .ovf d r g => .ovf d r (patchTab a b g)
  | .cache _ _ a, .cache _ _ b, .cache d r g => .cache d r (patchTab a b g)
  | .moves _ _ a, .moves _ _ b, .moves d r g => .moves d r (patchTab a b g)
  | .bloom _ _ a, .bloom _ _ b, .bloom d r g => .bloom d r (patchTab a b g)
  | .steps _ a, .steps _ b, .steps d g => .steps d (patched a b g)
  | .line _ _ a, .line _ _ b, .line c i g => .line c i (patched a b g)
  | .tb _ a, .tb _ b, .tb n g => .tb n (patchTb a b g)
  | .floor a, .floor b, .floor g => .floor (patched a b g)
  | .fill _ a, .fill _ b, .fill q g => .fill q (patchFill a b g)
  | .ledger _ a, .ledger _ b, .ledger q g => .ledger q (patchList a b g)
  | .relay _ a, .relay _ b, .relay k g => .relay k (patchList a b g)
  | .toPush _ a, .toPush _ b, .toPush p g => .toPush p (patchList a b g)
  | .cells a, .cells b, .cells g => .cells (patchList a b g)
  | .drv a a', .drv b b', .drv g g' => .drv (patchList a b g) (patchList a' b' g')
  | _, _, g => g

/-- The content of shingle x given as of a boundary at which the device stood at `a`, under its own change records up to `b`. -/
def patchShingle (a b : Covered) (x : Nat) (g : List Shingle) : List Shingle :=
  (List.zip (List.zip (a.shingle x) (b.shingle x)) g).map fun (e : (Shingle × Shingle) × Shingle) => patchPart e.1.1 e.1.2 e.2

/-! Installation. -/

/-- The RWS settings of a run of 4,096 bytes become those given, and their reset values where none is (R513). -/
def Dev.installWords (d : Dev) (chunk : Nat) (l : List (Nat × Word)) : Dev :=
  let ks := ((d.words.map (·.1)).filter fun k => k / 4096 == chunk) ++ l.map (·.1)
  { d with words := ks.eraseDups.foldl (fun m k =>
      let v := match tget l k with | some v => v.toNat | none => keyRst k
      setWord m k (mergeBits (wordAt m k) (rwsMask k) v)) d.words }

/-- A table with a run of `size` keys replaced. -/
def putRun {α : Type} (size run : Nat) (t l : Tab α) : Tab α :=
  l.foldl (fun t (e : Nat × α) => tset t e.1 e.2) (t.filter fun (e : Nat × α) => e.1 / size != run)

/-- A ledger's unit becomes the device's own where it holds one, and else a ghost (R515). -/
def heldUnit (own : List Pkt) (u : Pkt) : Pkt := (own.find? (sameUnit u)).getD { u with ghost := true }

/-- Install a part of a shingle (R513-R515). -/
def Dev.install (d : Dev) (s : Shingle) : Dev :=
  match s with
  | .words i l => d.installWords i l
  | .coach c v =>
    let x := d.co c
    d.setCo c { v with pnErr := [], slotA := x.slotA, slotB := x.slotB }
  | .slots c a b => d.modCo c fun x => { x with slotA := a, slotB := b }
  | .ck i k => { d with vault := { d.vault with ck := match k with | some k => tset d.vault.ck i k | none => tdel d.vault.ck i } }
  | .probe k v => { d with coach := { d.coach with probe := match v with | some v => tset d.coach.probe k v | none => tdel d.coach.probe k } }
  | .pos k r l => let x := d.dray k; d.setDray k { x with pos := putRun posRun r x.pos l }
  | .gen k r l => let x := d.dray k; d.setDray k { x with gen := putRun genRun r x.gen l }
  | .ovf k r l => let x := d.dray k; d.setDray k { x with ovf := putRun ovfRun r x.ovf l }
  | .cache k r l => let x := d.dray k; d.setDray k { x with cache := putRun cacheRun r x.cache l }
  | .moves k r l => let x := d.dray k; d.setDray k { x with moves := putRun movesRun r x.moves l }
  | .bloom k r l => let x := d.dray k; d.setDray k { x with bloom := putRun bloomRun r x.bloom l }
  | .steps k l => d.setDray k { d.dray k with steps := l }
  | .line c a v => d.setLine c a v
  | .tb n v => d.setTb n v
  | .floor f => { d with floor := { d.floor with value := f } }
  | .fill q v => { d with loft := { d.loft with fill := match v with | some v => tset d.loft.fill q v | none => tdel d.loft.fill q } }
  | .ledger q l =>
    let own := d.qUnits q
    d.setQueue q (l.map fun e => match e with | .unit u => .unit (heldUnit own u) | g => g)
  | .relay k l => d.setRelayQ k (l.map (heldUnit (d.relayQ k)))
  | .toPush p l =>
    { d with loft := { d.loft with toPush := tput d.loft.toPush [] p (l.map (heldUnit (tgetD d.loft.toPush p []))) } }
  | .cells l => { d with loft := { d.loft with hold := l } }
  | .drv l w => { d with vault := { d.vault with drv := l, drvWait := w } }
  | .beat _ | .batch _ _ | .sealed _ => d

end Sys2Proof.Machine
end

