-- ==== Sys2Proof/Machine/Pair.lean ====
section
/-! DEFINITION. Pair operation: digest messages (R494-R500), boundary records (R482-R489), commands and key material
(R274, R491, R534), pair states (R501-R511) and SYNCING (R512-R515). -/

namespace Sys2Proof.Machine

/-- Code of a pair state (R518). -/
def stateCode : PairState → Nat
  | .fenced => 0
  | .solo => 1
  | .active => 2
  | .standby => 3
  | .syncing => 4

/-- Pair counter c (R523). -/
def Dev.pairCnt (d : Dev) (c : Nat) : Dev := d.count .PAIR_CNT [c]

/-- The Ridge is locked (R539). -/
def Dev.ridgeLocked (d : Dev) : Bool := d.ridge.linkUp && d.ridge.peerUp

/-- Bytes 0-7 of the configuration image digest. -/
def Dev.imageTop (d : Dev) : BitVec 64 := d.boot.digest.extractLsb' 320 64

/-- PARTNER_OK (R480). -/
def Dev.partnerOk (d : Dev) : Bool :=
  d.ridgeLocked && d.vault.trusted && (match d.pair.digests with | m :: _ => m.image == d.imageTop | [] => false)

/-- The partner is silent at the boundary that starts beat n (R495). -/
def Dev.silent (d : Dev) (n : Nat) : Bool := !d.pair.digests.any fun m => m.beat + 2 == n || m.beat + 3 == n

/-- ARB_STAT (R506). -/
def Dev.arbStat (d : Dev) : Nat :=
  if d.halt || d.pst.fatal then 3 else
  match d.pair.state with
  | .active | .solo => if d.pair.intactWas then 0 else if d.pair.state == .active then 2 else 1
  | .standby => if d.pair.coast then 1 else 0
  | _ => 1

/-- PPS_OUT and WHIP_OUT are forced low: ARB_FENCE is high (R503). -/
def Dev.outputsOff (d : Dev) : Bool := d.pair.fence

/-- A MATCH_ERR, CMD_LOST or OVF takes a standby out of step (R501). -/
def Dev.goAstray (d : Dev) : Dev := { d with pair := { d.pair with astray := true } }

/-- A lost or failed COMMAND or KEY channel (R491, R535). -/
def Dev.cmdLost (d : Dev) : Dev := (((d.pairCnt 1).irq .PAIR_INT_STAT 3).goAstray).raise 62

/-! Digest messages. -/

/-- Number of bytes as a signed one of n bits. -/
def signedOf (n v : Nat) : Int := (BitVec.ofNat n v).toInt

/-- Read a digest message (R495). -/
def readDigest (b : Bytes) : DigestMsg :=
  let f := field b 9 1
  { beat := field b 0 8, state := field b 8 1, roleReq := bit f 7, intact := bit f 6, coast := bit f 5, yield_ := bit f 4,
    whipReq := bit f 3, arrive := signedOf 16 (field b 10 2), floor := field b 12 4, image := BitVec.ofNat 64 (field b 16 8),
    digests := (List.range 12).map fun i => BitVec.ofNat 64 (field b (24 + 8 * i) 8) }

/-- The device's own digests of a beat, when it has them (R494). -/
def Dev.ownDigests (d : Dev) (n : Nat) : Option (List (BitVec 64)) := (d.pair.own.find? fun e => e.1 == n).map (·.2)

/-- The digest message of beat n, its flags as the beat left them (R495). -/
def Dev.digestMsg (d : Dev) (n : Nat) (digests : List (BitVec 64)) : Bytes :=
  let flags := b2n (d.pair.roles.head?.getD false) * 128 + b2n d.pair.intact * 64 + b2n d.pair.coast * 32 +
    b2n d.pair.yield_ * 16 + b2n d.pair.whipReq * 8
  bytesOfNat 8 n ++ [BitVec.ofNat 8 (stateCode d.pair.state), BitVec.ofNat 8 flags] ++
  bytesOfNat 2 (d.pair.arrive % 65536).toNat ++ bytesOfNat 4 d.floor.value ++ bytesOfNat 8 d.imageTop.toNat ++
  ((List.range 12).flatMap fun b => bytesOfNat 8 (digests.getD b 0).toNat) ++ List.replicate 8 0#8

/-- Reduce modulo 1,200 into -600 to 599 (R499). -/
def wrap1200 (x : Int) : Int := (x + 600) % 1200 - 600

/-- A digest message arrives: its state, floor, skew and WHIP_REQ (R495, R499, R504, R568). -/
def Dev.digestReceive (d : Dev) (b : Bytes) (arrive : Int) : Dev :=
  if b.length != 128 || d.halt then d else
  let m := readDigest b
  let d := { d with pair := { d.pair with
    digests := (m :: d.pair.digests).take 4, partner := m.state, arrive := arrive,
    peerFloor := max d.pair.peerFloor m.floor, skew := wrap1200 ((arrive - m.arrive) / 2),
    lat := (wrap1200 ((arrive + m.arrive) / 2) % 4096).toNat } }
  if m.whipReq && d.pair.state == .active then d.whipTrigger 6 0xFFFF else d

/-- Source b's digest of beat n is not compared (R231, R487). -/
def Dev.spared (d : Dev) (n b : Nat) : Bool := d.pair.noCmp.any fun e => e.1 == n && bit e.2 b

/-- The digests of beat n that differ, as a vector; none when the two were not both held (R496). -/
def Dev.digestDiff (d : Dev) (n : Nat) : Option Nat :=
  (d.pair.digests.find? fun m => m.beat == n).bind fun m => (d.ownDigests n).map fun own =>
    ((List.zip (List.range 12) m.digests).map fun im =>
      if im.2 == own.getD im.1 0 || d.spared n im.1 then 0 else 2 ^ im.1).sum

/-- The digest message of beat n that is held. -/
def Dev.msgOf (d : Dev) (n : Nat) : Option DigestMsg := d.pair.digests.find? fun m => m.beat == n

/-- In step: ACTIVE with a STANDBY partner that does not coast, or a STANDBY that does not coast (R496). -/
def Dev.inStep (d : Dev) : Bool :=
  (d.pair.state == .active && d.pair.digests.head?.any fun m => m.state == 3 && !m.coast) ||
  (d.pair.state == .standby && !d.pair.coast)

/-- Record a difference (R496). -/
def Dev.noteDiff (d : Dev) (v n : Nat) : Dev :=
  let d := if d.rd .PAIR_DIG_DIFF == 0 then { d with pair := { d.pair with diffBeat := n } } else d
  ((((d.setStat .PAIR_DIG_DIFF [] v).pairCnt 3).irq .PAIR_INT_STAT 1).raise 58)

/-- Compare the digests of beat n at the boundary that starts beat n + 2, with the outcomes of R498 for INTACT as both
devices reported it of beat n; the flag says that a standby falls out of step. Once the active has yielded, no outcome
applies. -/
def Dev.digestCompare (d : Dev) (n : Nat) : Dev × Bool :=
  if !d.inStep then (d, false) else
  match d.digestDiff n, d.msgOf n with
  | some v, some m =>
    let d := d.pmcEvent 13 2
    let d := if v == 0 then d else d.noteDiff v n
    let act := if d.pair.state == .active then d.pair.intactWas else m.intact
    let sby := if d.pair.state == .active then m.intact else d.pair.intactWas
    if d.pair.settled then (d, false)
    else if !act && sby then
      ({ d with pair := { d.pair with settled := true, yield_ := d.pair.yield_ || d.pair.state == .active } }, false)
    else (d, d.pair.state == .standby && (!sby || v != 0))
  | _, _ => (d, false)

/-- A beat slip at a boundary (R500); the flag says that a standby falls out of step. -/
def Dev.slipCheck (d : Dev) : Dev × Bool :=
  if d.inStep && d.fld .PAIR_CFG [] 7 0 < d.pair.skew.natAbs then
    (((((d.pairCnt 4).irq .PAIR_INT_STAT 6).voidDet 1).raise 59), d.pair.state == .standby)
  else (d, false)

/-! Boundary records. -/

/-- Read a boundary record; none when its form does not hold (R483-R487). -/
def readRecord (b : Bytes) : Option BRecord :=
  let units := field b 12 2
  let evs := field b 14 1
  let unitEnd := 272 + 3 * units
  let pad := (4 - unitEnd % 4) % 4
  let n := unitEnd + pad + 16 * evs
  if b.length < 272 || b.length != n || field b 8 4 != n then none else
  let port := fun p => field b (16 + 4 * p) 4
  let ports := (List.range 64).map fun p =>
    (bits (port p) 31 21, bits (port p) 20 19, bit (port p) 18, bits (port p) 17 15)
  if (ports.map (·.1)).sum != units then none else
  let slots := (List.zip (List.range 64) ports).flatMap fun (e : Nat × (Nat × Nat × Bool × Nat)) => List.replicate e.2.1 e.1
  some { beat := field b 0 8, ovf := bit (field b 15 1) 7, ports := ports,
         units := (List.zip (List.range units) slots).map fun (e : Nat × Nat) =>
           let w := field b (272 + 3 * e.1) 3
           { slot := e.2, offset := bits w 23 13, phi := bits w 12 11, void := bit w 10, match_ := bits w 9 0 : RecUnit },
         events := (List.range evs).map fun i => (b.drop (unitEnd + pad + 16 * i)).take 16 }

/-- PHY of a slot's port entry at the boundary: LOS, LOL, LOF as the ended beat left them (R485, R488). -/
def Dev.phyOf (d : Dev) (p : Nat) : Nat :=
  if isLine p && d.thatchMode p then (d.port p).prevPhy / 16
  else
    let x := d.port p
    b2n (!x.sig) * 4 + b2n (!(d.pcsLock p && x.fec)) * 2

/-- The boundary record of beat k, as the active sends it during beat k + 1, `old` being the device at the end of beat k
(R482-R487). -/
def Dev.recordOf (d old : Dev) (k : Nat) : Bytes :=
  let us := fun (p : Nat) => d.arrivalsOf k fun a => a.port == p
  let all := (List.range 64).flatMap us
  let unit := fun (a : Arrival) =>
    bytesOfNat 3 (a.offset * 2 ^ 13 + a.phi * 2 ^ 11 + b2n a.void * 2 ^ 10 + (if a.void then 0 else a.sum))
  let evs := match old.pair.whipRec with
    | some (s, _) => old.pair.events.take 254 ++ [([6#8, BitVec.ofNat 8 s] ++ List.replicate 14 0#8)]
    | none => old.pair.events.take 255
  let ovf := evs.length < old.pair.events.length + (if old.pair.whipRec.isSome then 1 else 0)
  let body := ((List.range 64).flatMap fun p =>
      bytesOfNat 4 ((us p).length * 2 ^ 21 + (d.port p).phPrev % 4 * 2 ^ 19 + b2n (d.linkCond p) * 2 ^ 18 + d.phyOf p * 2 ^ 15)) ++
    all.flatMap unit
  let pad := List.replicate ((4 - (16 + body.length) % 4) % 4) 0#8
  let n := 16 + body.length + pad.length + 16 * evs.length
  bytesOfNat 8 k ++ bytesOfNat 4 n ++ bytesOfNat 2 all.length ++
  [BitVec.ofNat 8 evs.length, if ovf then 0x80#8 else 0#8] ++ body ++ pad ++ evs.flatten

/-- A device that took the lead in a handover at the last boundary: the record and the commands of the beat before it are
still the old active's (R482, R508; log entry 68). -/
def Dev.tookOver (d : Dev) : Bool := d.pair.handed && d.pair.state == .active

/-- The active's channels reach this device: what it sends is held or lost here (R482, R491, R512). -/
def Dev.takesChannels (d : Dev) : Bool :=
  d.pair.state == .standby || (d.pair.state == .syncing && 2 ≤ d.pair.phase) || d.tookOver

/-- The record of beat k, when it is held. -/
def Dev.recOf (d : Dev) (k : Nat) : Option BRecord := d.pair.recs.find? fun r => r.beat == k

/-- A whole boundary record of the active's beat k is held; a coasting device uses none (R482, R509). One that comes too late is
lost with the Whips it carries (R568). -/
def Dev.recordReceive (d : Dev) (b : Bytes) : Dev :=
  match readRecord b with
  | some r =>
    if !d.takesChannels || r.beat < d.pair.recFrom || d.beat < r.beat then d
    else if d.beat ≤ r.beat + 1 then
      let d := { d with pair := { d.pair with recs := (r :: d.pair.recs).take 4 } }
      if r.ovf && !d.pair.coast then d.goAstray else d
    else if (d.recOf r.beat).isSome then d
    else r.events.foldl (fun d e => if field e 0 1 == 6 then (d.count .WHP_MISSED []).pmcEvent 16 2 else d) d
  | none => d

/-- A unit of the slot's that its input stage keeps, taken by an entry of the record (R489). -/
def Dev.assignHeld (d : Dev) (k index : Nat) (e : RecUnit) : Dev :=
  match d.ports.arrivals.find? fun a => a.port == e.slot && a.held with
  | none => (((d.pairCnt 2).irq .PAIR_INT_STAT 4).goAstray).raise 61
  | some a =>
    let bad := !e.void && a.sum != e.match_
    let a' := { a with
      beat := k, index := index, offset := e.offset, phi := e.phi, rts := d.stamps (k * 1200 + e.offset) e.phi, void := e.void,
      lat := d.latIn k, held := false }
    let i := d.ports.arrivals.findIdx fun b => b == a
    let d := { d with ports := { d.ports with arrivals := d.ports.arrivals.set i a' } }
    let d := if e.void then d else d.rxCount a.port a.len
    if bad then (((d.pairCnt 2).irq .PAIR_INT_STAT 4).goAstray).raise 61 else d

/-- Assign the units of a record (R489). -/
def Dev.assignRecord (d : Dev) (r : BRecord) : Dev :=
  (r.units.foldl (fun (s : Dev × Nat × Nat) e =>
    let i := if e.slot == s.2.1 then s.2.2 else 0
    (s.1.assignHeld r.beat i e, e.slot, i + 1)) (d, 64, 0)).1

/-- The port conditions of a record: links, phases and PHY (R448, R485, R488). -/
def Dev.recordPorts (d : Dev) (r : BRecord) : Dev :=
  (List.zip (List.range 64) r.ports).foldl (fun (d : Dev) (e : Nat × (Nat × Nat × Bool × Nat)) =>
    let x := d.port e.1
    d.setPort e.1 { x with prevUp := e.2.2.2.1, prevPhy := e.2.2.2.2 * 16, phUse := e.2.2.1 }) d

/-- Apply one event entry of the record of beat k at the boundary that starts beat k + 2 (R487). -/
def Dev.recordEvent (d : Dev) (k : Nat) (b : Bytes) : Dev :=
  let c := field b 2 2
  match field b 0 1 with
  | 1 =>
    let i := field b 1 1 % 4
    let op := field b 2 2
    let e := field b 4 8
    d.ppsTake i k e (bits op 12 2) (op % 4) (d.stamps (e * 1200 + bits op 12 2) (op % 4))
  | 2 => d.modCo c fun x =>
      { x with hi := field b 4 6, mirror := field b 10 6, lo := 0, hitHard := x.hitHard || d.hardLim c ≤ field b 4 6 * 65536 }
  | 3 => d.modCo c fun x =>
      let bad := fun (s : Slot) => { s with rxBad := true }
      if field b 4 1 == 0 then { x with slotA := x.slotA.map bad, errDue := true }
      else { x with slotB := x.slotB.map bad, errDue := true }
  | 4 => d.modCo c fun x => { x with chock := true, cause := .mirrorErr, mirBad := true, errDue := true }
  | 5 =>
    let was := d.floor.write.getD ⟨0, 0, true, false, false, true⟩
    { d with floor := { d.floor with write := some { was with f := field b 4 4, began := field b 8 8 - 65536, told := true } } }
  | 6 => { d with whip := { d.whip with due := d.whip.due ++ [⟨k + 2, k, field b 1 1 + 32, 0xFFFF⟩] } }
  | _ => d

/-- Use the record of beat k at the boundary that starts beat k + 2 (R482, R489). -/
def Dev.useRecord (d : Dev) (r : BRecord) : Dev :=
  let d := ((d.assignRecord r).recordPorts r).ppsOwn r.beat false
  (r.events.foldl (fun (d : Dev) e => (d.recordEvent r.beat e).spareSources r.beat e) d).pmcEvent 13 1

/-- A unit that its port's input stage kept is assigned as the device's own: the next index of its port and beat, and the
FIXED_LAT of that beat (R26, R37, R509). -/
def Dev.assignKept (d : Dev) (a : Arrival) : Dev :=
  let n := (d.arrivalsOf a.beat fun b => b.port == a.port).length
  let a := { a with held := false, index := n, lat := d.latIn a.beat }
  let d := { d with ports := { d.ports with arrivals := d.ports.arrivals ++ [a] } }
  if a.void then d else d.rxCount a.port a.len

/-- A device without the active's record of beat k takes the units and captures it kept of beats up to k as its own (R509). -/
def Dev.assignOwn (d : Dev) (k : Nat) : Dev :=
  let mine := d.ports.arrivals.filter fun a => a.held && a.beat ≤ k
  let d := { d with ports := { d.ports with arrivals := d.ports.arrivals.filter fun a => !(a.held && a.beat ≤ k) } }
  (mine.foldl (fun d a => d.assignKept a) d).ppsOwn k true

/-! Commands and key material. -/

/-- One message of the COMMAND channel at the partner (R491). -/
def Dev.takeCommand (d : Dev) (c : PairCmd) : Dev :=
  match c with
  | .write k v => d.stage (.word k v)
  | .discard => d.discardOpen
  | .seal a => d.acceptBatch a
  | .lost => d.cmdLost

/-- Messages of the COMMAND channel arrive (R491). -/
def Dev.commandReceive (d : Dev) (l : List PairCmd) : Dev :=
  if d.takesChannels then l.foldl (fun d c => d.takeCommand c) d else d

/-- A command as the COMMAND channel carries it, the model's own layout (R491, R533; log entry 20). -/
def cmdBytes : PairCmd → Bytes
  | .write k v => [1#8] ++ bytesOfNat 4 k ++ bytesOfNat 4 v.toNat
  | .discard => [2#8]
  | .seal a => [3#8] ++ bytesOfNat 8 a
  | .lost => []

/-- Commands, oldest first, that fit the `room` bytes of a frame set (R533). -/
def cmdsFit : Nat → List PairCmd → List PairCmd
  | _, [] => []
  | room, c :: r => if (cmdBytes c).length ≤ room then c :: cmdsFit (room - (cmdBytes c).length) r else []

/-- The commands that the next frame set takes (R491, R533). -/
def Dev.cmdsDue (d : Dev) : List PairCmd := cmdsFit 2160 d.pair.fwd

/-- The COMMAND channel is full: it has no room for one more write (R491, R533; log entry 20). -/
def Dev.commandFull (d : Dev) : Bool := decide (2151 < (d.pair.fwd.map fun c => (cmdBytes c).length).sum)

/-- Note a command for the partner; with the channel full, posted-write credits are withheld (R491, R576). -/
def Dev.forward (d : Dev) (c : PairCmd) : Dev :=
  if d.pair.state == .active then
    let was := d.commandFull
    let d := { d with pair := { d.pair with fwd := d.pair.fwd ++ [c] } }
    if d.commandFull && !was then d.pmcEvent 19 4 else d
  else d

/-- IV of an encrypted message on a Ridge channel (R534). -/
def ridgeIv (chan sender beat : Nat) : BitVec 96 := BitVec.ofNat 96 (chan * 2 ^ 80 + sender * 2 ^ 72 + beat)

/-- Bytes of a delivery of a kind as it is forwarded. -/
def dlvSize (kind : Nat) : Nat := if kind == 1 then 59 else if kind == 2 then 43 else 11

/-- Plaintext form of a forwarded delivery (R274): the apply-beat of its batch, all ones while that is open, and the model's
own layout (log entry 20). -/
def dlvBytes (a : Option Nat) (v : Delivery) : Bytes :=
  (bytesOfNat 8 (a.getD (2 ^ 64 - 1)) ++ bytesOfNat 1 v.kind ++ bytesOfNat 2 v.target ++
    (if v.kind == 3 then [] else bytesOfNat 32 v.key.toNat) ++
    (if v.kind == 1 then bytesOfNat 4 v.stage ++ bytesOfNat 12 v.salt.toNat else []))

/-- Read forwarded deliveries; the fuel is more than a message holds. -/
def readDlvs : Nat → Bytes → List (Option Nat × Delivery)
  | 0, _ => []
  | n + 1, b =>
    let kind := field b 8 1
    let s := dlvSize kind
    if !within kind 1 3 || b.length < s then [] else
    let a := field b 0 8
    let v : Delivery := ⟨kind, field b 9 2, if kind == 1 then field b 43 4 else 0,
      if kind == 3 then 0 else BitVec.ofNat 256 (field b 11 32), if kind == 1 then BitVec.ofNat 96 (field b 47 12) else 0⟩
    (if a == 2 ^ 64 - 1 then none else some a, v) :: readDlvs n (b.drop s)

/-- This device has the lower SERIAL (R502, R534). -/
def Dev.lowSerial (d : Dev) : Bool := d.otp.serial.toNat < d.vault.peerSerial.toNat

/-- The deliveries that one message takes: up to 236 bytes (R534). -/
def dlvFit : Nat → List (Option Nat × Delivery) → List (Option Nat × Delivery)
  | _, [] => []
  | room, e :: r => if dlvSize e.2.kind ≤ room then e :: dlvFit (room - dlvSize e.2.kind) r else []

/-- Encrypt a message of a Ridge channel in the frame of beat n: ciphertext and tag (R534). -/
def Dev.ridgeSeal (d : Dev) (chan n : Nat) (b : Bytes) : Bytes :=
  let iv := ridgeIv chan (b2n (!d.lowSerial)) n
  let ct := ctrXor d.vault.pairKey iv b
  ct ++ gcmTag d.vault.pairKey iv [] ct

/-- Decrypt the partner's message of a Ridge channel in its frame of beat n, when its tag fits and the partner is trusted
(R274, R534). -/
def Dev.ridgeOpen (d : Dev) (chan n : Nat) (b : Bytes) : Option Bytes :=
  let iv := ridgeIv chan (b2n d.lowSerial) n
  let ct := b.take (b.length - 16)
  if d.vault.trusted && 16 < b.length && gcmTag d.vault.pairKey iv [] ct == b.drop (b.length - 16) then
    some (ctrXor d.vault.pairKey iv ct)
  else none

/-- Send deliveries under the pair link key in the frame of beat n, when no other message of the KEY channel waits: one
encrypted message a beat (R274, R534). -/
def Dev.sendDelivery (d : Dev) (n : Nat) : Dev :=
  if !d.vault.trusted then { d with pair := { d.pair with dlvSent := [], dlvs := [] } } else
  if !d.vault.keyQ.isEmpty then d else
  let l := dlvFit 236 d.pair.dlvs
  if l.isEmpty then d else
  { d with pair := { d.pair with dlvs := d.pair.dlvs.drop l.length } }.sendKey
    (keyMessage 3 0 (d.ridgeSeal 3 n (l.flatMap fun (e : Option Nat × Delivery) => dlvBytes e.1 e.2)))

/-- Put a delivery into the last of the sealed batches with apply-beat `a`. -/
def placeIn (a : Nat) (e : Entry) : List Batch → List Batch
  | [] => []
  | b :: r =>
    if b.apply == a && !(r.any fun c => c.apply == a) then
      { b with entries := (b.entries.filter fun x => !entrySame e x) ++ [e] } :: r
    else b :: placeIn a e r

/-- Put a delivery that arrives from the active into its batch: the open one, or a sealed one; one whose boundary has passed
takes effect at once (R274; log entry 20). -/
def Dev.placeDelivery (d : Dev) (a : Option Nat) (v : Delivery) : Dev :=
  match a with
  | none => d.stage (.dlv v)
  | some a =>
    if d.batch.sealed.any fun b => b.apply == a then
      { d with batch := { d.batch with sealed := placeIn a (.dlv v) d.batch.sealed } }
    else if a ≤ d.beat then d.applyDelivery (.dlv v)
    else d.stage (.dlv v)

/-- A KIND 3 message: decrypt and check it under the pair link key, with the frame's BEAT_COUNT (R274, R534). -/
def Dev.deliveryReceive (d : Dev) (beat : Nat) (b : Bytes) : Dev :=
  match if d.takesChannels then d.ridgeOpen 3 beat b else none with
  | some p => (readDlvs 24 p).foldl (fun d e => d.placeDelivery e.1 e.2) d
  | none => d

/-- A message of the KEY channel, sent in the frame of beat `beat` (R274, R275, R534). -/
def Dev.keyReceive (d : Dev) (beat : Nat) (m : Bytes) : Dev :=
  let data := (m.drop 4).take (field m 2 2)
  if !d.ridge.linkUp then d else
  match field m 0 1 with
  | 1 => { d with vault := { d.vault with peerCert := tset d.vault.peerCert (field m 1 1 % 4) data } }
  | 2 =>
    match d.acceptPartner data with
    | some pub => { d with vault := { d.vault with peerPub := some pub, peerSerial := BitVec.ofNat 64 (field data 8 8) } }
    | none => d
  | 3 => d.deliveryReceive beat data
  | 4 => { d with vault := { d.vault with peerNonce := some (BitVec.ofNat 384 (natOfBytes data)) } }.attestIfDrawn
  | _ => d

/-! SYNCING. -/

/-- Units that are ghosts, each once: a relay unit on its way to its second Outbound pipe is still the relay queue's (R515, R521). -/
def Dev.ghosts (d : Dev) : Nat :=
  ((d.loft.queues.map fun (e : Nat × List QEntry) => ((unitsOf e.2).filter (·.ghost)).length).sum) +
  ((d.loft.toPush.map fun (e : Nat × List Pkt) => (e.2.filter fun u => u.ghost &&
    !(decide (8 ≤ e.1) && (tgetD d.loft.relay (e.1 - 8) []).any (sameUnit u))).length).sum) +
  ((d.loft.relay.map fun (e : Nat × List Pkt) => (e.2.filter (·.ghost)).length).sum)

/-- Units processed before boundary J become ghosts (R515). -/
def Dev.makeGhosts (d : Dev) (j : Nat) : Dev :=
  let g := fun (u : Pkt) => if u.proc < j then { u with ghost := true } else u
  { d with loft := { d.loft with
      queues := d.loft.queues.map fun (e : Nat × List QEntry) =>
        (e.1, e.2.map fun x => match x with | .unit u => .unit (g u) | y => y),
      toPush := d.loft.toPush.map fun (e : Nat × List Pkt) => (e.1, e.2.map g),
      relay := d.loft.relay.map fun (e : Nat × List Pkt) => (e.1, e.2.map g) } }

/-- Bytes of a key slot within a key shingle: stage, NEXT_PN, RX_BAD, key and salt, or the zero stage of an empty one; the
model's own layout (log entry 72). -/
def slotBytes : Option Slot → Bytes
  | none => bytesOfNat 57 0
  | some s => bytesOfNat 4 s.stage ++ bytesOfNat 8 s.nextPn ++ bytesOfNat 1 (b2n s.rxBad) ++ bytesOfNat 32 s.key.toNat ++
    bytesOfNat 12 s.salt.toNat

/-- Read a key slot. -/
def readSlot (b : Bytes) : Option Slot :=
  if field b 0 4 == 0 then none
  else some ⟨BitVec.ofNat 256 (field b 13 32), BitVec.ofNat 96 (field b 45 12), field b 0 4, field b 4 8, field b 12 1 == 1⟩

/-- Bytes of the parts of a key shingle: kind, number and content (log entry 72). -/
def keyPartBytes : Shingle → Bytes
  | .slots c a b => [1#8] ++ bytesOfNat 2 c ++ slotBytes a ++ slotBytes b
  | .ck i k => [2#8] ++ bytesOfNat 2 i ++ bytesOfNat 1 (b2n k.isSome) ++ bytesOfNat 32 (k.getD 0).toNat
  | .probe i v =>
    let x := v.getD ⟨0, 0, none, 0⟩
    [3#8] ++ bytesOfNat 2 i ++ bytesOfNat 1 (b2n v.isSome) ++ bytesOfNat 2 x.coach ++ bytesOfNat 4 x.stage ++
      bytesOfNat 8 x.loadedAt ++ slotBytes x.slot
  | _ => []

/-- Read the parts of a key shingle; the fuel is more than one holds. -/
def readKeyParts : Nat → Bytes → List Shingle
  | 0, _ => []
  | n + 1, b =>
    if field b 0 1 == 1 && 117 ≤ b.length then
      .slots (field b 1 2) (readSlot ((b.drop 3).take 57)) (readSlot ((b.drop 60).take 57)) :: readKeyParts n (b.drop 117)
    else if field b 0 1 == 2 && 36 ≤ b.length then
      .ck (field b 1 2) (if field b 3 1 == 1 then some (BitVec.ofNat 256 (field b 4 32)) else none) :: readKeyParts n (b.drop 36)
    else if field b 0 1 == 3 && 75 ≤ b.length then
      .probe (field b 1 2) (if field b 3 1 == 1 then
        some ⟨field b 4 2, field b 6 4, readSlot ((b.drop 18).take 57), field b 10 8⟩ else none) :: readKeyParts n (b.drop 75)
    else []

/-- The parts of a shingle taken at boundary b and sent in that beat; key material only as its trusted partner encrypted it
(R513, R534). None where its tag does not fit. -/
def Dev.shingleParts (d : Dev) (b : Nat) (l : List Shingle) : Option (List Shingle) :=
  l.foldr (fun s acc =>
    match acc, s with
    | none, _ | _, .slots _ _ _ | _, .ck _ _ | _, .probe _ _ => none
    | some r, .sealed x => (d.ridgeOpen 4 b x).map fun p => readKeyParts 160 p ++ r
    | some r, s => some (s :: r)) (some [])

/-! The bytes of the COPY channel: the model's own layout (log entry 72). -/

/-- Bytes filled with zeros to n. -/
def fillTo (n : Nat) (b : Bytes) : Bytes := (b ++ List.replicate (n - b.length) 0#8).take n

/-- RWS bits that the word at a key holds at reset. -/
def rwsRst (k : Nat) : Nat := keyRst k &&& rwsMask k

/-- The bytes of a part: settings as the words of their run, lines of 30 bytes, encrypted key material; none for other on-die
state, whose layout is internal. -/
def partBytes : Shingle → Bytes
  | .words k l => (List.range 1024).flatMap fun i =>
      let a := k * 4096 + 4 * i
      bytesOfNat 4 (match tget l a with | some v => v.toNat | none => rwsRst a)
  | .line _ _ v => bytesOfNat 30 v.toNat
  | .sealed b => b
  | _ => []

/-- The bytes of a shingle: 4,096 of on-die state, or a whole number of them for a queue that needs more (R513). -/
def shingleBytes (l : List Shingle) : Bytes :=
  let b := l.flatMap partBytes
  if !b.isEmpty then b else
  let b := Config.onDieBytes l
  fillTo (4096 * max 1 ((b.length + 4095) / 4096)) b

/-- Read the bytes of shingle x. -/
def readShingle (x : Nat) (b : Bytes) : List Shingle :=
  if 0x1000000 ≤ x then
    (List.range 128).map fun i =>
      let a := (x - 0x1000000) * 128 + i
      .line (a / 2 ^ 22) (a % 2 ^ 22) (BitVec.ofNat 240 (field b (30 * i) 30))
  else if isKeyShingle x then [.sealed b]
  else if x < 0x100000 then
    [.words x ((List.range 1024).filterMap fun i =>
      let a := x * 4096 + 4 * i
      let v := field b (4 * i) 4
      if v == rwsRst a then none else some (a, BitVec.ofNat 32 v))]
  else Config.onDieParts x b

/-- Bytes of a shingle on its way: number, taking boundary, place, number of shingles of the pass, length and content. -/
def itemBytes (x : CopyItem) : Bytes :=
  let b := shingleBytes x.parts
  bytesOfNat 4 x.num ++ bytesOfNat 8 x.at_ ++ bytesOfNat 4 x.ix ++ bytesOfNat 4 x.total ++ bytesOfNat 4 b.length ++ b

/-- Shingles held whole in the bytes so far, and the bytes of the one after them; the fuel is more than a beat brings. -/
def readItems : Nat → Bytes → List CopyItem × Bytes
  | 0, b => ([], b)
  | n + 1, b =>
    let len := field b 20 4
    if b.length < 24 || b.length < 24 + len then ([], b) else
    let r := readItems n (b.drop (24 + len))
    (⟨field b 0 4, field b 4 8, field b 12 4, field b 16 4, readShingle (field b 0 4) ((b.drop 24).take len)⟩ :: r.1, r.2)

/-- The content of the COPY channel in a beat: the change list of the beat before, how many bytes go on with a shingle begun
earlier, and the bytes of shingles. -/
def copyContent (beat : Nat) (tooLong : Bool) (changes : List (Nat × Word)) (skip : Nat) (b : Bytes) : Bytes :=
  bytesOfNat 8 beat ++ bytesOfNat 1 (b2n tooLong) ++ bytesOfNat 3 changes.length ++ bytesOfNat 4 skip ++ bytesOfNat 4 b.length ++
  (changes.flatMap fun (e : Nat × Word) => bytesOfNat 4 e.1 ++ bytesOfNat 4 e.2.toNat) ++ b

/-! Receiving (R513, R514, R535). -/

/-- What a device that takes shingles missed can be any of them: the pass has a gap, and only a pass without one brings them all
(R514, R535; log entry 72). -/
def Dev.copyLost (d : Dev) : Dev :=
  { d with pair := { d.pair with gap := true, whole := false, copyBuf := none } }

/-- The change list of a beat against the device's own changes of it: shingles taken at or before that beat whose records differ, or
that only one of the two changed, are marked (R514). -/
def Dev.markChanges (d : Dev) (beat : Nat) (l : List (Nat × Word)) : Dev :=
  let own := ((d.pair.changed.find? fun e => e.1 == beat).map (·.2)).getD []
  let bad := ((l.map (·.1)) ++ own.map (·.1)).eraseDups.filter fun x =>
    tget l x != tget own x && (tget d.pair.taken x).any fun b => b ≤ beat
  { d with pair := { d.pair with marked := (d.pair.marked ++ bad).eraseDups } }

/-- A shingle is held whole: the first of a pass begins it, one out of turn leaves a gap in it, and the last ends it; one that
cannot be read is marked (R513, R514). -/
def Dev.takeItem (d : Dev) (x : CopyItem) : Dev :=
  let p := d.pair
  let first := x.ix == 0
  let p := { p with
    pass := if first && p.nextIx != 0 then min 63 (p.pass + 1) else p.pass,
    gap := if first then false else p.gap || x.ix != p.nextIx,
    nextIx := x.ix + 1, left := x.total - (x.ix + 1) }
  let p := match d.shingleParts x.at_ x.parts with
    | some l => { p with copied := p.copied ++ [{ x with parts := l }], taken := tset p.taken x.num x.at_, marked := p.marked.filter (· != x.num) }
    | none => { p with marked := (p.marked ++ [x.num]).eraseDups }
  { d with pair := { p with whole := p.whole || (x.ix + 1 == x.total && !p.gap) } }

/-- The COPY channel takes effect in phase COPY (R512, R514). -/
def Dev.copyReceive (d : Dev) (m : CopyMsg) : Dev :=
  if d.pair.state != .syncing || d.pair.phase != 2 then d
  else if m.lost || m.tooLong then d.copyLost
  else m.items.foldl (fun d x => d.takeItem x) (d.markChanges m.beat m.changes)

/-- The content of the COPY channel arrives in the frames of a beat; none where it is lost (R533, R535). -/
def Dev.copyArrives (d : Dev) (b : Option Bytes) : Dev :=
  match b with
  | none => d.copyReceive ⟨0, [], false, [], true⟩
  | some b =>
    let n := field b 9 3
    let changes := (List.range n).map fun i => (field b (20 + 8 * i) 4, BitVec.ofNat 32 (field b (24 + 8 * i) 4))
    let used := field b 16 4
    let s := (b.drop (20 + 8 * n)).take used
    let skip := field b 12 4
    let s := match d.pair.copyBuf with | some h => some (h ++ s) | none => if skip < used then some (s.drop skip) else none
    let r := readItems 1600 (s.getD [])
    let d := d.copyReceive ⟨field b 0 8, changes, field b 8 1 == 1, r.1, false⟩
    if d.pair.state != .syncing || d.pair.phase != 2 then d
    else { d with pair := { d.pair with copyBuf := s.map fun _ => r.2 } }

/-! Sending (R513, R514). -/

/-- The content of a shingle as it stands at boundary n, key material encrypted for the frame of beat n (R513, R534). -/
def Dev.shingleAt (d : Dev) (n x : Nat) : List Shingle :=
  let l := d.covered.shingle x
  if isKeyShingle x then [.sealed (d.ridgeSeal 4 n (l.flatMap keyPartBytes))] else l

/-- Take shingles of the pass `l` until `need` bytes wait, one encrypted message at most; after a pass another starts (R513,
R534). -/
def Dev.topUp (n : Nat) (l : List Nat) (need : Nat) : Nat → Dev → Dev
  | 0, d => d
  | f + 1, d =>
    if need ≤ (d.pair.sendQ.map fun e => e.2.length).sum then d else
    let i := if d.pair.sendIx < l.length then d.pair.sendIx else 0
    match l[i]? with
    | none => d
    | some x =>
      let it : CopyItem := ⟨x, n, i, l.length, d.shingleAt n x⟩
      let d := { d with pair := { d.pair with sendIx := i + 1, sendQ := d.pair.sendQ ++ [(it, itemBytes it)] } }
      if isKeyShingle x then d else Dev.topUp n l need f d

/-- Hand out `k` bytes of the shingles that wait: what is left of each, and those of which the last byte has gone. -/
def handOut : Nat → List (CopyItem × Bytes) → List (CopyItem × Bytes) × List CopyItem
  | _, [] => ([], [])
  | k, e :: r =>
    if k < e.2.length then ((e.1, e.2.drop k) :: r, [])
    else
      let x := handOut (k - e.2.length) r
      (x.1, e.1 :: x.2)

/-- Bytes that the COPY channel has in a frame set with a record of `rec_` bytes (R533). -/
def copyRoom (rec_ : Nat) : Nat := 39680 - 2544 - (rec_ + 7) / 8 * 8

/-- The ACTIVE fills the COPY channel for its SYNCING partner in beat n: the change list of beat n - 1 and shingles, as far as the
channel has room (R490, R513, R514, R533; log entry 72). -/
def Dev.sendCopy (d : Dev) (n room : Nat) : Dev × Bytes :=
  if d.pair.partner != 4 then ({ d with pair := { d.pair with sendIx := 0, sendQ := [] } }, []) else
  let list := ((d.pair.changed.find? fun e => e.1 + 1 == n).map (·.2)).getD []
  let tooLong := decide (room < 20 + 8 * list.length)
  let list := if tooLong then [] else list
  let free := room - (20 + 8 * list.length)
  let skip := match d.pair.sendQ with
    | e :: _ => if e.2.length < (itemBytes e.1).length then e.2.length else 0
    | [] => 0
  let d := Dev.topUp n (passOrder d.vault.trusted d.covered) free 40 d
  let b := (d.pair.sendQ.flatMap (·.2)).take free
  let r := handOut b.length d.pair.sendQ
  ({ d with pair := { d.pair with sendQ := r.1 } }.emit (.copy ⟨n - 1, list, tooLong, r.2, false⟩), copyContent (n - 1) tooLong list (min skip b.length) b)

/-- What the device itself did in beat n - 1 and at the boundary that starts beat n: its digests and, while shingles are copied, its
change list; the covered state as it stands now is kept for the beats to come (R494, R514). -/
def Dev.noteBeat (d : Dev) (n : Nat) : Dev :=
  let new := d.covered
  let p := d.pair
  let copies := (p.state == .syncing && 2 ≤ p.phase) || (p.state == .active && p.partner == 4)
  let p := match p.snaps with
    | old :: _ =>
      if old.beat + 1 == n && d.ridge.linkUp then
        { p with own := ((n - 1, (List.range 12).map (digestOf old new)) :: p.own).take 4,
                 changed := if copies then ((n - 1, changesOf old new) :: p.changed).take 4 else [] }
      else { p with own := [], changed := [] }
    | [] => p
  { d with pair := { p with snaps := (new :: p.snaps).take 4 } }

/-! The phases of SYNCING. -/

/-- Shingles held whole are installed at the boundary, under the device's own change records since each was taken; one taken before
what the device still knows is marked (R514). -/
def Dev.installAll (d : Dev) : Dev :=
  let l := d.pair.copied
  let d := { d with pair := { d.pair with copied := [] } }
  l.foldl (fun d x =>
    match d.pair.snaps.find? fun c => c.beat == x.at_ with
    | some a => (patchShingle a d.covered x.num x.parts).foldl Dev.install d
    | none => { d with pair := { d.pair with marked := (d.pair.marked ++ [x.num]).eraseDups } }) d

/-- BEAT_COUNT that ALIGN takes: the active's in the beat that begins where the device's now does (R512; log entry 97). -/
def Dev.alignBeat (d : Dev) : Option Nat := d.pair.digests.head?.map fun m => m.beat + if 0 ≤ d.pair.skew then 2 else 3

/-- The boundary under way is ALIGN's (R512). -/
def Dev.aligning (d : Dev) : Bool := d.pair.state == .syncing && d.pair.phase == 1 && !d.pair.digests.isEmpty

/-- CCLK by which ALIGN lengthens the beat that ends, so that the next one begins with the active's (R499, R512; log entry 97). -/
def Dev.alignShift (d : Dev) : Nat := if d.aligning then (d.pair.skew % 1200).toNat else 0

/-- A COPY pass begins at the device: nothing of it has come yet (R514, R521). -/
def Dev.newPass (d : Dev) (pass : Nat) : Dev :=
  { d with pair := { d.pair with
      phase := 2, pass := pass, left := (passOrder d.vault.trusted d.covered).length, nextIx := 0, gap := true, whole := false } }

/-- ALIGN: the batch store empties, the lines of shingles that are not sent are zero, and records, commands and COPY are taken from
the next beat on, which begins with the active's (R512, R513). -/
def Dev.align (d : Dev) (n : Nat) : Dev :=
  let d := { d with
    batch := { d.batch with open_ := [], ovf := false, sealed := [] }, tbm := { d.tbm with lines := [] },
    pair := { d.pair with skew := 0, marked := [], copied := [], taken := [], copyBuf := none, snaps := [], own := [], changed := [],
                          recFrom := n } }
  d.newPass 1

/-- The step of SYNCING at the boundary that starts beat n: ALIGN, COPY until all shingles are installed, none is marked and the
digests agree, and DRAIN; the flag says that it completes (R512-R515). -/
def Dev.syncStep (d : Dev) (n : Nat) : Dev × Bool :=
  if d.pair.state != .syncing then (d, false)
  else if d.pair.phase == 1 then (if d.pair.digests.isEmpty then d else d.align n, false)
  else
    let held := d.pair.copied.isEmpty
    let d := d.installAll
    if d.pair.phase == 2 then
      if held && d.pair.whole && d.pair.marked.isEmpty && d.digestDiff (n - 2) == some 0 then
        ({ d with pair := { d.pair with phase := 3 } }.makeGhosts n, false)
      else (d, false)
    else if (d.digestDiff (n - 2)).any (· != 0) then (d.newPass (min 63 (d.pair.pass + 1)), false)
    else (d, d.ghosts == 0)

/-! Pair states. -/

/-- The coaches that run or are in use. -/
def Dev.coachesInUse (d : Dev) : List Nat :=
  ((d.coach.dyn.map (·.1)) ++ d.words.filterMap fun (kv : Nat × Word) =>
    match regAt kv.1 with
    | some (.CO_CTL, [c]) => if d.kind c == .idle then none else some c
    | _ => none).eraseDups

/-- Coaches restart above the greater of both floors (R233, R504). -/
def Dev.restartCoaches (d : Dev) : Dev :=
  let d := { d with floor := { d.floor with value := max d.floor.value d.pair.peerFloor } }
  d.coachesInUse.foldl (fun d c => d.modCo c fun x => { x with restart := true }) d

/-- Move to a pair state at the boundary that starts beat n (R501). -/
def Dev.moveTo (d : Dev) (s : PairState) (n : Nat) : Dev :=
  if d.pair.state == s then d else
  let was := d.pair.state
  let d := { d with pair := { d.pair with
    state := s, since := n, coast := false, astray := false, yield_ := false, settled := false, byHand := false,
    phase := if s == PairState.syncing then 1 else 0, pass := 0, left := 0, copied := [], marked := [], copyBuf := none,
    sendIx := 0, sendQ := [],
    recs := if s == PairState.standby then d.pair.recs else [] } }
  let d := d.irq .PAIR_INT_STAT 0
  if was == PairState.standby && (s == PairState.active || s == PairState.solo) then d.pairCnt 6 else d

/-- A move outside a handover: a device that no longer takes records assigns what its input stages kept itself, and nothing
more is forwarded of a beat that it did not lead (R489, R501). -/
def Dev.toState (d : Dev) (s : PairState) (n : Nat) : Dev :=
  let was := d.partnerState
  let d := d.moveTo s n
  let d := if was && !d.partnerState then d.assignOwn (n - 1) else d
  if s == PairState.active then d else { d with pair := { d.pair with fwd := [], dlvs := [], events := [] } }

/-- A handover at the boundary that starts beat n: the record and the commands of beat n - 1 are still the old active's, which
keeps the units it assigned (R508; log entry 68). -/
def Dev.handOver (d : Dev) (s : PairState) (n : Nat) : Dev :=
  let d := d.moveTo s n
  { d with pair := { d.pair with
      handed := true, byHand := s == PairState.active, recFrom := if s == PairState.active then d.pair.recFrom else n } }

/-- A ROLE_CONFLICT (R501, R502). -/
def Dev.roleConflict (d : Dev) : Dev := ((d.pairCnt 5).irq .PAIR_INT_STAT 5).raise 63

/-- R502 lets the device become ACTIVE. -/
def Dev.mayLead (d : Dev) : Bool :=
  d.pair.partner != 1 && d.pair.partner != 2 &&
  (d.lowSerial || (match d.pair.digests with | m :: _ => !m.roleReq | [] => true))

/-- Become ACTIVE under R502, or keep the state with ROLE_CONFLICT. -/
def Dev.lead (d : Dev) (n : Nat) (restart : Bool) : Dev :=
  if d.mayLead then (if restart then d.restartCoaches else d).toState .active n else d.roleConflict

/-- The last three ROLE samples all read `r`. -/
def Dev.roleHeld (d : Dev) (r : Bool) : Bool := d.pair.roles.take 3 == [r, r, r]

/-- The handover of R508 at the boundary that starts beat n. -/
def Dev.handover (d : Dev) (n : Nat) : Bool :=
  match d.msgOf (n - 2) with
  | none => false
  | some m =>
    if d.pair.state == PairState.active then d.roleHeld false && m.roleReq && m.state == 3 && !m.coast
    else d.roleHeld true && !m.roleReq && m.state == 2 && !d.pair.coast

/-- ROLE has read 0 for fewer than three boundaries beside a STANDBY in step: the handover of R508 may still complete, and the row
for ROLE = 0 waits for it (log entry 94). -/
def Dev.handoverWaits (d : Dev) (n : Nat) : Bool := !d.roleHeld false && d.inStep && d.partnerOk && !d.silent n

/-- The partner's last digest message shows ACTIVE or SOLO. After a handover, messages of beats before it still show the old
active's state, which is none (R501, R508; log entry 94). -/
def Dev.peerLeads (d : Dev) : Bool :=
  match d.pair.digests with
  | m :: _ => (m.state == 1 || m.state == 2) && (!d.pair.byHand || d.pair.since ≤ m.beat)
  | [] => false

/-- COAST begins at the boundary that starts beat n (R509). -/
def Dev.beginCoast (d : Dev) (n : Nat) : Dev :=
  let d := { d with pair := { d.pair with coast := true, coastAt := n } }
  (d.irq .PAIR_INT_STAT 2).raise 60

/-- SYNCING completes at the boundary that starts beat n: STANDBY, intact, and DET returns to 1 (R58, R501, R515). -/
def Dev.syncDone (d : Dev) (n : Nat) : Dev :=
  let d := (d.toState .standby n).pairCnt 7
  ({ d.irq .PAIR_INT_STAT 7 with pair := { d.pair with intact := true, intactWas := true } }).setDet

/-- The row of R501 that decides at the boundary that starts beat n; without PARTNER_OK no state but FENCED or SOLO is taken (R480).
`lost` says that a record was lost, `out` that a
standby fell out of step, `done` that SYNCING completes. -/
def Dev.pairRow (d : Dev) (n : Nat) (role fence lost out done : Bool) : Dev :=
  let ok := d.partnerOk
  let p := d.pair.partner
  let quiet := d.silent n
  if d.pair.state != PairState.fenced && fence then d.toState .fenced n else
  match d.pair.state with
  | .fenced =>
    if fence then d
    else if role && ok then d.lead n true
    else if role then (d.restartCoaches).toState .solo n
    else if ok && p == 2 then d.toState .syncing n
    else d
  | .solo =>
    if !role then (d.stompAll (n * 1200 - 1)).toState .fenced n
    else if ok && (p == 0 || p == 4) then d.lead n false
    else d
  | .active =>
    if ok && d.handover n then d.handOver (if d.pair.intact then .standby else .fenced) n
    else if !role && !d.handoverWaits n then (d.stompAll (n * 1200 - 1)).toState .fenced n
    else if !ok || quiet then d.toState .solo n
    else if d.peerLeads then (if d.lowSerial then d.roleConflict else d.roleConflict.toState .fenced n)
    else d
  | .standby =>
    if ok && d.handover n then d.handOver .active n
    else if role && (d.pair.coast || quiet) then
      (d.stompAll (n * 1200 - 1)).toState (if quiet || !ok then .solo else .active) n
    else if d.pair.coast && d.pair.coastAt + 4 ≤ n then d.toState (if ok && p == 2 then .syncing else .fenced) n
    else if lost then (if d.pair.coast then d else d.beginCoast n)
    else if d.pair.astray || out then d.toState (if ok then .syncing else .fenced) n
    else d
  | .syncing =>
    if done && ok then d.syncDone n
    else if role then (if !ok then (d.restartCoaches).toState .solo n else d.lead n true)
    else if !ok || p != 2 then d.toState .fenced n
    else d

/-- ARB_FENCE rises: F188, units are stomped, what was handed over by the end of CCLK t standing, lanes idle, PPS_OUT and
WHIP_OUT go low (R503). -/
def Dev.fenceRise (d : Dev) (t : Nat) : Dev :=
  if d.pair.fence then d else
  let d := (d.stompAll t).raise 188
  { d with pair := { d.pair with fence := true },
           time := { d.time with pout := d.time.pout.map fun (e : Nat × PpsOut) => (e.1, { e.2 with level := false }) },
           whip := { d.whip with outLevel := false } }

/-- A level of ARB_ROLE or ARB_FENCE that has stood long enough to pass the filter (R674). -/
def pinStable (ns : Nat) : Bool := decide (20 ≤ ns)

/-- The filtered levels of ARB_ROLE and ARB_FENCE at a boundary (R674). -/
def Dev.roleAt (d : Dev) (i : BoundaryIn) : Bool := if pinStable i.roleNs then i.role else d.pair.role
def Dev.fenceAt (d : Dev) (i : BoundaryIn) : Bool := if pinStable i.fenceNs then i.fence else d.pair.fence

/-- Every boundary samples ARB_ROLE and ARB_FENCE; a rise of ARB_FENCE acts, what was handed over by the end of CCLK t standing (R503,
R505, R518). -/
def Dev.sampleArb (d : Dev) (t : Nat) (i : BoundaryIn) : Dev :=
  let role := d.roleAt i
  let fence := d.fenceAt i
  let d := if fence then d.fenceRise t else d
  { d with pair := { d.pair with roles := (role :: d.pair.roles).take 3, role := role, fence := fence, fenceIn := fence } }

/-- The record of beat n - 2 is due at the boundary that starts beat n (R482, R508, R512). -/
def Dev.recordDue (d : Dev) (n : Nat) : Bool := d.takesChannels && d.pair.recFrom + 2 ≤ n

/-- What a SYNCING device kept of beats up to k without a record stays unassigned (R489; log entry 98). -/
def Dev.dropKept (d : Dev) (k : Nat) : Dev :=
  ({ d with ports := { d.ports with arrivals := d.ports.arrivals.filter fun a => !(a.held && a.beat ≤ k) } }).ppsOwn k false

/-- At the boundary that starts beat n the device uses the record of beat n - 2, or, lacking it, its own arrivals and captures; a
SYNCING device makes no assignment of its own (R482, R489, R509). -/
def Dev.takeRecord (d : Dev) (n : Nat) : Dev :=
  match if d.recordDue n && !d.pair.coast then d.recOf (n - 2) else none with
  | some r => d.useRecord r
  | none =>
    if !((d.recordDue n || d.pair.coast) && 2 ≤ n) then d
    else if d.pair.state == .syncing then d.dropKept (n - 2)
    else d.assignOwn (n - 2)

/-- The pair's work at the boundary that starts beat n, before step 1 of R40: digests, beat slips and the state, `lost` saying
that a record was lost (R496-R501). -/
def Dev.pairBoundary (d : Dev) (n : Nat) (i : BoundaryIn) (lost : Bool) : Dev :=
  let d := d.sampleArb (n * 1200 - 1) i
  let d := { d with pair := { d.pair with handed := false } }
  let c := d.digestCompare (n - 2)
  let s := c.1.slipCheck
  let d := if lost then (s.1.pairCnt 0).pmcEvent 13 3 else s.1
  let y := { d with pair := { d.pair with intactWas := d.pair.intact } }.syncStep n
  let d := y.1.pairRow n d.pair.role d.pair.fence lost (c.2 || s.2) y.2
  { d with pair := { d.pair with astray := false, noCmp := d.pair.noCmp.filter fun e => n ≤ e.1 + 2 } }

/-- Read the COMMAND channel; the fuel is its length. -/
def readCmds : Nat → Bytes → List PairCmd
  | 0, _ => []
  | n + 1, b =>
    match field b 0 1 with
    | 1 => .write (field b 1 4) (BitVec.ofNat 32 (field b 5 4)) :: readCmds n (b.drop 9)
    | 2 => .discard :: readCmds n (b.drop 1)
    | 3 => .seal (field b 1 8) :: readCmds n (b.drop 9)
    | _ => []

/-- The frames of the beat that starts take their content: TRAIN while the receive link is down, else the channels, KEY with the
oldest message that waits (R531, R533, R534). -/
def Dev.loadFrames (d : Dev) (t : RidgeTx) : Dev :=
  if !d.ridge.linkUp then { d with ridge := { d.ridge with tx := none } } else
  { d with ridge := { d.ridge with tx := some { t with key := d.vault.keyQ.headD [] } },
           vault := { d.vault with keyQ := d.vault.keyQ.drop 1 } }

/-- The active's channels in beat n, `old` being the device at the end of the beat before: the record and the commands of that beat,
deliveries, and shingles for a SYNCING partner (R482, R490, R491, R513). -/
def Dev.sendLead (d old : Dev) (n : Nat) (t : RidgeTx) : Dev × RidgeTx :=
  let rec_ := d.recordOf old (n - 1)
  let cmds := d.cmdsDue
  let d := d.emit (.record rec_)
  let d := ((if cmds.isEmpty then d else d.emit (.commands cmds)).sendDelivery n).sendCopy n (copyRoom rec_.length)
  (d.1, { t with record := rec_, command := cmds.flatMap cmdBytes, copy := d.2 })

/-- What the device sends in beat n about beat n - 1, `old` being the device at the end of that beat: its digest message, and the
channels of the ACTIVE that led that beat; a halted device sends neither, and commands that the COMMAND channel cannot take wait for
the next beat (R482, R491, R495, R506, R533). -/
def Dev.pairSend (d old : Dev) (n : Nat) : Dev :=
  let d := d.noteBeat n
  let up := d.ridge.linkUp && !d.halt && 1 ≤ n
  let dig := if up then old.digestMsg (n - 1) ((d.ownDigests (n - 1)).getD []) else []
  let sent := (d.cmdsDue).length
  let d := if up then d.emit (.digest dig) else d
  let t := { RidgeTx.idle with digest := dig }
  let x := if up && (d.pair.state == PairState.active) != d.pair.handed then d.sendLead old n t else (d, t)
  let d := x.1.loadFrames x.2
  let rest := if d.pair.state == PairState.active then d.pair.fwd.drop sent else []
  { d with pair := { d.pair with fwd := rest } }

/-- What the beat that ended collected for its record and its digest message is its own: the next beat collects anew (R487,
R495, R568). -/
def Dev.newRecord (d : Dev) : Dev :=
  { d with pair := { d.pair with events := [], whipRec := none, whipReq := false } }

end Sys2Proof.Machine
end

