-- ==== Sys2Proof/Machine/Ridge.lean ====
section
/-! DEFINITION. The Ridge lanes: frames, lane lock and deskew (R528-R540) and PRBS (R541-R544). -/

namespace Sys2Proof.Machine

/-- A lane nothing has touched. -/
def Lane.init : Lane :=
  { state := .off, cands := [], pos := 0, misses := 0, since := 0, beat := 0, data := false, segA := none, segB := none, rxUp := false,
    fill := 0, rxRd := false, txRd := false, prbsLock := false, prbsReg := 0, prbsAgree := 0, prbsErrs := [], txReg := 0, inj := false, injCnt := 0,
    fresh := false, usable := false }

/-- Lane j. -/
def Dev.lane (d : Dev) (j : Nat) : Lane := tgetD d.ridge.lanes j Lane.init

/-- Put lane j. -/
def Dev.setLane (d : Dev) (j : Nat) (x : Lane) : Dev :=
  { d with ridge := { d.ridge with lanes := tput d.ridge.lanes Lane.init j x } }

/-- Counter c of a lane (R551). -/
def Dev.laneCnt (d : Dev) (j c : Nat) (n : Nat := 1) : Dev := d.count .RDG_LANE_CNT [j, c] n

/-- MODE of a lane: PRBS (R549). -/
def Dev.prbsMode (d : Dev) (j : Nat) : Bool := d.flag .RDG_LANE_CTL [j] 3

/-- The Ridge lanes are powered (R524). -/
def Dev.ridgeOn (d : Dev) : Bool := d.domOn 21

/-- The link goes down: trust ends, and the time to PARTNER_ABSENT starts again (R539, R540). -/
def Dev.ridgeDown (d : Dev) : Dev :=
  if d.ridge.linkUp then
    let d := { d with ridge := { d.ridge with linkUp := false, lastSet := none, quiet := d.clk.ticks },
                      pair := { d.pair with peerFloor := 0 } }
    ((d.linkLost).irq .RDG_INT_STAT 0).raise 56
  else d

/-- The link comes up (R539, R540). -/
def Dev.ridgeUp (d : Dev) : Dev :=
  if d.ridge.linkUp then d else
  ({ d with ridge := { d.ridge with linkUp := true, absent := false } }.irq .RDG_INT_STAT 0).setCond 57 false

/-- A lane enters SEARCH; leaving LOCKED counts RELOCK, raises F134 + j and takes the link down (R538, R539, R552). -/
def Dev.laneSearch (d : Dev) (j : Nat) : Dev :=
  let x := d.lane j
  let was := x.state == LaneState.locked
  let d := d.setLane j { x with state := .search, cands := [], misses := 0, since := d.clk.ticks, segA := none, segB := none,
                                fresh := false, usable := false }
  if was then (((d.laneCnt j 4).irq .RDG_INT_STAT 2).raise (134 + j)).ridgeDown else d

/-- Training begins at the first boundary after PD21 is on and the PLL is locked (R531). -/
def Dev.ridgeTrain (d : Dev) : Dev :=
  if d.ridgeOn && d.clk.pllLock && !d.ridge.started then
    let d := { d with ridge := { d.ridge with started := true, quiet := d.clk.ticks } }
    forEach 16 d fun d j => if d.prbsMode j then d else d.laneSearch j
  else d

/-- PD21 is no longer on: every lane is off and the link is down (R524). -/
def Dev.ridgeOff (d : Dev) : Dev :=
  let d := d.ridgeDown
  let d := forEach 16 d fun d j =>
    if (d.lane j).state == LaneState.locked then (d.irq .RDG_INT_STAT 2).raise (134 + j) else d
  { d with ridge := { d.ridge with lanes := [], started := false } }

/-! Headers. -/

/-- LANE, TYPE, RX_UP and BEAT of a header (R529). -/
def hdrLane (h : Bytes) : Nat := field h 0 1 / 16
def hdrType (h : Bytes) : Nat := field h 0 1 % 16
def hdrUp (h : Bytes) : Bool := bit (field h 1 1) 7
def hdrBeat (h : Bytes) : Nat := field h 2 4

/-- HCRC fits. -/
def hdrCrc (h : Bytes) : Bool := h.length == 8 && crc16 (h.take 6) == field h 6 2

/-- A header fits on lane j (R538). -/
def hdrFits (j : Nat) (h : Bytes) : Bool := hdrCrc h && (hdrType h == 1 || hdrType h == 2) && hdrLane h == j

/-- The header that lane j sends in the beat under way (R529, R531). -/
def Dev.laneHeader (d : Dev) (j : Nat) : Bytes :=
  let up := d.ridge.tx.isSome
  let b := [BitVec.ofNat 8 (16 * j + if up then 2 else 1), BitVec.ofNat 8 (b2n up * 128)] ++
    bytesOfNat 4 (if d.clk.run then d.beat % 2 ^ 32 else 0)
  b ++ bytesOfNat 2 (crc16 b)

/-! Slices and channels. -/

/-- Where slice i lies: lane, whether in segment B, and its first byte there (R532). -/
def slicePlace (i : Nat) : Nat × Bool × Nat :=
  if i < 4448 then (i % 16, false, 8 * (i / 16)) else ((i - 4448) % 16, true, 8 * ((i - 4448) / 16))

/-- Slices of the channels that come before RECORD (R533): first and count. -/
def digestSlices : Nat × Nat := (0, 16)
def keySlices : Nat × Nat := (16, 32)
def commandSlices : Nat × Nat := (48, 270)

/-- The beat payload: every channel in its slices, COPY in those that remain (R532, R533). -/
def payloadOf (t : RidgeTx) : Bytes :=
  fillTo 39680 (fillTo 128 t.digest ++ fillTo 256 t.key ++ fillTo 2160 t.command ++
    fillTo ((t.record.length + 7) / 8 * 8) t.record ++ t.copy)

/-- Bytes in slices of 8; the fuel is their number. -/
def slicesOf : Nat → Bytes → List Bytes
  | 0, _ => []
  | n + 1, b => b.take 8 :: slicesOf n (b.drop 8)

/-- Segment A or B of lane j: the slices that lie in it (R532). -/
def segmentOf (p : Bytes) (j : Nat) (segB : Bool) : Bytes :=
  let s := if segB then slicesOf 512 (p.drop 35584) else slicesOf 4448 p
  ((List.zip (List.range s.length) s).filter fun (e : Nat × Bytes) => e.1 % 16 == j).flatMap (·.2)

/-- The two segments that lane j sends in the beat under way, zeros in a TRAIN frame (R531, R532). -/
def Dev.laneSegs (d : Dev) (j : Nat) : Bytes × Bytes :=
  match d.ridge.tx with
  | some t => let p := payloadOf t; (segmentOf p j false, segmentOf p j true)
  | none => (List.replicate 2224 0#8, List.replicate 256 0#8)

/-- The frame of lane j from its header on: both segments with their checks (R528-R531). -/
def Dev.laneBytes (d : Dev) (j : Nat) : Bytes :=
  let s := d.laneSegs j
  d.laneHeader j ++ s.1 ++ fcsOf s.1 ++ s.2 ++ fcsOf s.2

/-- Lane j sends frames: training has begun, its domain is on and its MODE is 0 (R524, R531). -/
def Dev.laneSends (d : Dev) (j : Nat) : Bool := j < 16 && d.ridge.started && d.ridgeOn && !d.prbsMode j

/-- The 2,500 code groups that lane j sends in the beat under way, marker first, in the polarity of TX_INV; none where it sends no
frame (R525, R527, R528, R531). -/
def Dev.laneFrame (d : Dev) (j : Nat) : List CodeGroup :=
  if !d.laneSends j then [] else
  let rd := (d.lane j).txRd
  polarity (d.flag .RDG_LANE_CTL [j] 2) (markerOf rd ++ (writeGroups (!rd) (d.laneBytes j)).1)

/-- CCLK of the beat in which code group g of a frame is sent (R528). -/
def groupCclk (g : Nat) : Nat := 12 * g / 25

/-- The code groups that lane j sends in the CCLK under way (R528). -/
def Dev.laneGroups (d : Dev) (j : Nat) : List CodeGroup :=
  ((List.zip (List.range 2500) (d.laneFrame j)).filter fun (e : Nat × CodeGroup) => groupCclk e.1 == d.clk.cclk).map (·.2)

/-- The frames of the beat that ends have gone: each lane keeps its running disparity (R525). -/
def Dev.framesSent (d : Dev) : Dev :=
  forEach 16 d fun d j =>
    if d.laneSends j then d.setLane j { d.lane j with txRd := rdSent (!(d.lane j).txRd) (d.laneBytes j) } else d

/-- Slice i of the frames that have arrived, when its segment's check passed on a lane whose frame is one to use (R532,
R535). -/
def Dev.sliceIn (d : Dev) (i : Nat) : Option Bytes :=
  let w := slicePlace i
  let x := d.lane w.1
  if x.usable then (if w.2.1 then x.segB else x.segA).map fun b => (b.drop w.2.2).take 8 else none

/-- The bytes of a channel in `n` slices from `i` on, when every one of them arrived (R533, R535). -/
def Dev.channelIn (d : Dev) (i n : Nat) : Option Bytes :=
  ((List.range n).map fun k => d.sliceIn (i + k)).foldr (fun s acc => s.bind fun b => acc.map (b ++ ·)) (some [])

/-- Segment bytes whose check holds (R530). -/
def segOk (n : Nat) (b : Bytes) : Option Bytes :=
  if b.length == n + 4 && fcsOf (b.take n) == b.drop n then some (b.take n) else none

/-! Frame sets. -/

/-- Earliest and latest of the marker positions of the lanes (R539). -/
def Dev.firstPos (d : Dev) : Nat := (List.range 16).foldl (fun m j => min m (d.lane j).pos) (d.lane 0).pos
def Dev.lastPos (d : Dev) : Nat := (List.range 16).foldl (fun m j => max m (d.lane j).pos) 0

/-- The positions of all lanes lie within 64 code groups of the earliest, and their frames carry one BEAT (R539). -/
def Dev.setHolds (d : Dev) : Bool :=
  let us := ((List.range 16).map d.lane).filter (·.usable)
  d.lastPos ≤ d.firstPos + 64 && (us.all fun x => some x.beat == (us.head?.map (·.beat)))

/-- Every lane is LOCKED and has met its frame of one beat: their positions lie in one frame's time (R539). -/
def Dev.setWhole (d : Dev) : Bool :=
  ((List.range 16).all fun i => (d.lane i).state == LaneState.locked && (d.lane i).fresh) && d.lastPos < d.firstPos + 1250

/-- BEAT_COUNT of the partner's frames, from the bits of it that their headers give: the one nearest to this device's. -/
def Dev.widenBeat (d : Dev) (b : Nat) : Nat :=
  (((d.beat : Int) + (BitVec.ofNat 32 (b + 2 ^ 32 - d.beat % 2 ^ 32)).toInt).toNat)

/-- A frame set of DATA frames delivers the channels that arrived whole: DIGEST of the beat before with its arrival offset, KEY,
COMMAND, RECORD and COPY. A lost KEY or COMMAND channel counts CMD_LOST, and so does a set that does not follow the one before
(R491, R499, R533-R535; log entry 20). -/
def Dev.deliverSet (d : Dev) (beat : Nat) (follows : Bool) : Dev :=
  let dig := d.channelIn digestSlices.1 digestSlices.2
  let key := d.channelIn keySlices.1 keySlices.2
  let cmd := d.channelIn commandSlices.1 commandSlices.2
  let head := d.channelIn 318 2
  let len := match head with | some b => field b 8 4 | none => 0
  let rec_ := if within len 272 32936 then (d.channelIn 318 ((len + 7) / 8)).map (·.take len) else none
  let copyFrom := 318 + (len + 7) / 8
  let copy := if within len 272 32936 then d.channelIn copyFrom (4960 - copyFrom) else none
  let at_ := wrap1200 (12 * ((d.lane d.ridge.latest).pos % 2500) / 25 : Nat)
  let d := match cmd with
    | some b => (if follows || !d.takesChannels then d else d.cmdLost).commandReceive (readCmds 2160 b)
    | none => d.cmdLost
  let d := match key with
    | some b => if field b 0 1 == 0 then d else d.keyReceive beat b
    | none => d.cmdLost
  let d := match rec_ with | some b => d.recordReceive b | none => d
  let d := if head.isNone || within len 272 32936 then d.copyArrives copy else d
  match dig with
  | some b => if field b 0 8 + 1 == beat then d.digestReceive b at_ else d
  | none => d

/-- A whole frame set has arrived (R535, R539). A set of which no frame can be used counts as one of the same TYPE as the last, a beat
later. -/
def Dev.frameSet (d : Dev) : Dev :=
  let ls := (List.range 16).map d.lane
  let spread := d.lastPos - d.firstPos
  let latest := ((List.range 16).find? fun j => (d.lane j).pos == d.lastPos).getD 0
  let holds := d.setHolds
  let locked := d.ridgeLocked
  let some_ := ls.any (·.usable)
  let up := if some_ then ls.any fun x => x.usable && x.rxUp else d.ridge.peerUp
  let data := if some_ then ls.any fun x => x.usable && x.data else d.ridge.data
  let last := d.ridge.lastSet
  let beat := match ls.find? (·.usable) with | some x => d.widenBeat x.beat | none => last.getD 0 + 1
  let d := { d with ridge := { d.ridge with
    spread := min 64 spread, latest := latest, peerUp := up, data := data,
    lanes := d.ridge.lanes.map fun (e : Nat × Lane) => (e.1, { e.2 with fresh := false }) } }
  if !holds then (d.laneCnt 0 4).ridgeDown else
  let d := if locked && !up then d.linkLost else d
  let was := d.ridge.linkUp
  let d := d.ridgeUp
  if was && data then
    { d with ridge := { d.ridge with lastSet := some beat } }.deliverSet beat (last.all fun b => b + 1 == beat)
  else { d with ridge := { d.ridge with lastSet := none } }

/-- A header fits at the position (R538). -/
def frameFits (f : RxFrame) (j : Nat) : Bool := f.clean && hdrFits j f.hdr

/-- A frame at the expected position of a LOCKED lane (R535, R538). -/
def Dev.lockedFrame (d : Dev) (j pos : Nat) (f : RxFrame) : Dev :=
  let x := { d.lane j with pos := pos + 2500, fresh := true }
  let fits := frameFits f j
  if f.marker || fits then
    let sa := segOk 2224 f.segA
    let sb := segOk 256 f.segB
    let bad := b2n sa.isNone + b2n sb.isNone
    let d := d.setLane j { x with misses := 0, usable := fits, beat := if fits then hdrBeat f.hdr else x.beat,
                                  data := if fits then hdrType f.hdr == 2 else x.data,
                                  rxUp := if fits then hdrUp f.hdr else x.rxUp, segA := if fits then sa else none,
                                  segB := if fits then sb else none }
    let d := d.pmcEvent 14 1
    let d := if hdrCrc f.hdr then d else d.laneCnt j 1
    if bad == 0 then d else ((d.laneCnt j 2 bad).irq .RDG_INT_STAT 3).pmcEvent 14 2 none bad
  else
    let d := ((d.setLane j { x with misses := x.misses + 1, usable := false, segA := none, segB := none }).laneCnt j 3)
    let d := if hdrCrc f.hdr then d else d.laneCnt j 1
    if x.misses + 1 == 4 then d.laneSearch j else d

/-- A lane locks on the frame at `pos`, its elastic buffer centred (R526, R538). -/
def Dev.laneLock (d : Dev) (j pos : Nat) (f : RxFrame) : Dev :=
  (d.setLane j { d.lane j with state := .locked, cands := [], misses := 0, fill := 32 }).lockedFrame j pos f

/-- SEARCH or CANDIDATE meets a code-group position; a lane whose last candidate falls enters SEARCH anew (R538). -/
def Dev.searchFrame (d : Dev) (j pos : Nat) (f : RxFrame) : Dev :=
  let x := d.lane j
  let good := f.marker && frameFits f j
  if good && x.cands.any fun c => c.1 + 2500 == pos then d.laneLock j pos f else
  let kept := x.cands.filter fun c => pos < c.1 + 2500 || (pos == c.1 + 2500 && f.marker)
  let kept := if good && kept.length < 4 then kept ++ [(pos, hdrBeat f.hdr, 0)] else kept
  let since := if kept.isEmpty && x.state == .candidate then d.clk.ticks else x.since
  d.setLane j { x with cands := kept, since := since, state := if kept.isEmpty then .search else .candidate }

/-- HUNT meets a code-group position (R538). -/
def Dev.huntFrame (d : Dev) (j pos : Nat) (f : RxFrame) : Dev :=
  let x := d.lane j
  if !frameFits f j then d else
  let n := hdrBeat f.hdr
  match x.cands.find? fun c => c.1 + 2500 == pos && (c.2.1 + 1) % 2 ^ 32 == n with
  | some c =>
    if c.2.2 == 1 then d.laneLock j pos f
    else d.setLane j { x with cands := (x.cands.filter (· != c)) ++ [(pos, n, 1)] }
  | none =>
    let kept := x.cands.filter fun c => pos ≤ c.1 + 2500
    d.setLane j { x with cands := if kept.length < 4 then kept ++ [(pos, n, 0)] else kept }

/-- Code groups in error, by the CCLK of the frame they came in, count at the performance counters: each in edge mode, one a CCLK in
level mode (R575, R576). -/
def Dev.groupErrors (d : Dev) (at_ : List Nat) : Dev :=
  (List.range 8).foldl (fun (d : Dev) k =>
    if at_.isEmpty || !d.pmcTakes 14 k 3 none then d
    else d.pmcAdd 14 k (if d.flag .PMC_CNT_CFG [14, k] 30 then at_.eraseDups.length else at_.length)) d

/-- Lane j takes code groups from its elastic buffer, in the polarity of RX_INV: those before a position, and the marker, header and
segments of what may be a frame there. Code groups in error count (R525, R527). -/
def Dev.readFrame (d : Dev) (j : Nat) (before mk h a b : List CodeGroup) : Dev × RxFrame :=
  let inv := polarity (d.flag .RDG_LANE_CTL [j] 1)
  let g0 := before.length
  let r := readGroups (d.lane j).rxRd (inv (before ++ mk ++ h ++ a ++ b))
  let d := d.setLane j { d.lane j with rxRd := r.2 }
  let bad := (List.zip (List.range r.1.length) r.1).filterMap fun (e : Nat × Byte × Bool) =>
    if e.2.2 then some (if e.1 < g0 then groupCclk e.1 else groupCclk (e.1 - g0)) else none
  let d := if bad.isEmpty then d else (d.laneCnt j 0 bad.length).groupErrors bad
  let f := r.1.drop (g0 + mk.length)
  let hdr := f.take h.length
  let bytes := fun (l : List (Byte × Bool)) => l.map (·.1)
  (d, { marker := isMarker (inv mk), clean := hdr.all fun e => !e.2, hdr := bytes hdr,
        segA := bytes ((f.drop h.length).take a.length), segB := bytes ((f.drop (h.length + a.length)).take b.length) })

/-- The elastic buffer of lane j has moved by `drift` code groups since its last frame: run full or empty, a LOCKED lane loses its
lock (R526, R538). -/
def Dev.bufferMoves (d : Dev) (j : Nat) (drift : Int) : Dev :=
  let x := d.lane j
  if x.state != .locked then d else
  let v := (x.fill : Int) + drift
  if v ≤ 0 || 64 ≤ v then d.laneSearch j else d.setLane j { x with fill := v.toNat }

/-- Lane j receives what may be a Ridge frame: its marker's code-group position, by how much its elastic buffer has moved, the code
groups before it and those of its parts (R525-R528, R538, R539). -/
def Dev.ridgeFrame (d : Dev) (j pos : Nat) (drift : Int) (before mk h a b : List CodeGroup) : Dev :=
  if 16 ≤ j || !d.ridgeOn || d.prbsMode j || (d.lane j).state == .off then d else
  let d := d.bufferMoves j drift
  let r := d.readFrame j before mk h a b
  let d := r.1
  let d := match (d.lane j).state with
    | .off => d
    | .search | .candidate => d.searchFrame j pos r.2
    | .hunt => d.huntFrame j pos r.2
    | .locked => if pos != (d.lane j).pos then d else d.lockedFrame j pos r.2
  if d.setWhole then d.frameSet else d

/-- 7,500 code groups without lock (R538). -/
def Dev.huntStart (d : Dev) (j : Nat) : Dev :=
  let x := d.lane j
  if j < 16 && (x.state == LaneState.search || x.state == LaneState.candidate) && d.flag .RDG_CFG [] 0 &&
     x.since + 3600 ≤ d.clk.ticks then
    d.setLane j { x with state := .hunt, cands := [], since := d.clk.ticks }
  else d

/-- 25,000 code groups in HUNT (R538). -/
def Dev.huntTimeout (d : Dev) (j : Nat) : Dev :=
  if j < 16 && (d.lane j).state == LaneState.hunt && (d.lane j).since + 12000 ≤ d.clk.ticks then d.laneSearch j else d

/-- No transition for 1,024 code groups, or an elastic buffer overran (R526, R538). -/
def Dev.laneTimeout (d : Dev) (j : Nat) : Dev :=
  if j < 16 && (d.lane j).state != LaneState.off then d.laneSearch j else d

/-- 2 ms without the link (R540). -/
def Dev.partnerAbsent (d : Dev) : Dev :=
  if d.ridge.started && !d.ridge.linkUp && !d.ridge.absent && d.ridge.quiet + 2400000 ≤ d.clk.ticks then
    ({ d with ridge := { d.ridge with absent := true } }.irq .RDG_INT_STAT 1).setCond 57 true
  else d

/-! PRBS. -/

/-- Length and feedback tap of a pattern; none for the code not used (R541). -/
def prbsPoly (sel : Nat) : Option (Nat × Nat) :=
  if sel == 0 then some (7, 6) else if sel == 1 then some (15, 14) else if sel == 2 then some (31, 28) else none

/-- The next bit of a generator and its register after it (R541). -/
def prbsNext (nt : Nat × Nat) (r : Nat) : Bool × Nat :=
  let b := bit r (nt.1 - 1) != bit r (nt.2 - 1)
  (b, (2 * r + b2n b) % 2 ^ nt.1)

/-- PRBS_SEL of a lane. -/
def Dev.prbsSel (d : Dev) (j : Nat) : Nat := d.fld .RDG_LANE_CTL [j] 5 4

/-- A write of RDG_LANE_CTL takes effect: MODE turns the lane off or starts its search, and seeds the generators; under the code not
used the checker is not locked (R538, R541, R544). -/
def Dev.laneMode (d : Dev) (j : Nat) (was : Bool) : Dev :=
  let now := d.prbsMode j
  if was == now then (if now && prbsPoly (d.prbsSel j) == none then d.setLane j { d.lane j with prbsLock := false, prbsAgree := 0 } else d)
  else if now then
    let locked := (d.lane j).state == LaneState.locked
    let d := d.setLane j { Lane.init with txReg := 2 ^ 31 - 1 }
    if locked then ((d.irq .RDG_INT_STAT 2).raise (134 + j)).ridgeDown else d.ridgeDown
  else if d.ridge.started then (d.setLane j Lane.init).laneSearch j
  else d.setLane j Lane.init

/-- INJ: the next transmitted bit is inverted (R543). -/
def Dev.prbsInject (d : Dev) (j : Nat) : Dev :=
  if j < 16 && d.prbsMode j then d.setLane j { d.lane j with inj := true } else d

/-- One bit sent on a PRBS lane: the generator steps, and an inversion that waits is used up (R541, R543). -/
def prbsSend (sel rate : Nat) (x : Lane) : Lane :=
  let r := match prbsPoly sel with | some nt => (prbsNext nt x.txReg).2 | none => x.txReg
  let c := x.injCnt + 1
  if rate != 0 && 2 ^ (rate + 9) ≤ c then { x with txReg := r, injCnt := 0, inj := true }
  else { x with txReg := r, injCnt := if rate == 0 then 0 else c, inj := false }

/-- The bit that a PRBS lane sends next: its generator's, inverted where an inversion waits and by TX_INV; the pattern not used is
all zeros (R527, R541, R543). -/
def Dev.prbsBit (d : Dev) (j : Nat) : Bool :=
  let x := d.lane j
  let b := match prbsPoly (d.prbsSel j) with | some nt => (prbsNext nt x.txReg).1 | none => false
  (b != x.inj) != d.flag .RDG_LANE_CTL [j] 2

/-- `n` bits are sent on lane j with INJ_RATE in effect (R543). -/
def Dev.continuousInjection (d : Dev) (j n : Nat) : Dev :=
  if j < 16 && d.prbsMode j then
    d.setLane j ((List.range n).foldl (fun x _ => prbsSend (d.prbsSel j) (d.fld .RDG_LANE_CTL [j] 27 24) x) (d.lane j))
  else d

/-- The checker takes one bit (R542): the lane, errors counted, and whether lock was lost. -/
def prbsCheck (sel : Nat) (s : Lane × Nat × Bool) (b : Bool) : Lane × Nat × Bool :=
  let x := s.1
  match prbsPoly sel with
  | none => ({ s.1 with prbsLock := false, prbsAgree := 0, prbsErrs := [] }, s.2)
  | some nt =>
    let p := prbsNext nt x.prbsReg
    if x.prbsLock then
      -- a locked checker keeps its own sequence
      let errs := ((p.1 != b) :: x.prbsErrs).take 1024
      let x := { x with prbsReg := p.2, prbsErrs := errs }
      let n := s.2.1 + b2n (p.1 != b)
      if 64 ≤ (errs.filter id).length then
        ({ x with prbsLock := false, prbsAgree := 0, prbsErrs := [] }, n, true)
      else (x, n, s.2.2)
    else
      let agree := if p.1 == b then x.prbsAgree + 1 else 0
      ({ x with prbsReg := (2 * x.prbsReg + b2n b) % 2 ^ nt.1, prbsLock := 256 ≤ agree,
                prbsAgree := if 256 ≤ agree then 0 else agree }, s.2.1, s.2.2)

/-- Bits arrive at the pins of a PRBS lane; RX_INV inverts them (R527, R542). -/
def Dev.prbsChecker (d : Dev) (j : Nat) (rx : List Bool) : Dev :=
  if j < 16 && d.prbsMode j then
    let r := (rx.map (· != d.flag .RDG_LANE_CTL [j] 1)).foldl (prbsCheck (d.prbsSel j)) (d.lane j, 0, false)
    let d := d.setLane j r.1
    let d := if r.2.1 == 0 then d else d.laneCnt j 5 r.2.1
    if r.2.2 then d.irq .RDG_INT_STAT 4 else d
  else d

end Sys2Proof.Machine
end

