-- ==== Sys2Proof/Machine/Whip.lean ====
section
/-! DEFINITION. The Whip's latch, its pin and its own triggers (R567-R573), and the cycle counters and snapshots of the
performance counters (R570, R574). -/

namespace Sys2Proof.Machine

/-- The power domains block b of R576 lies in (R612, R574). -/
def pmcDomains (b : Nat) : List Nat :=
  if b == 2 then [1]
  else if 4 ≤ b && b ≤ 7 then let d := b - 4; [5 + 2 * d, 6 + 2 * d, 13 + d, 17 + d]
  else if b == 8 then [5, 7, 9, 11]
  else if b == 9 then (List.range 8).map (22 + ·)
  else if b == 10 then (List.range 4).map (30 + ·)
  else if b == 12 then [3]
  else if b == 14 then [21]
  else if 15 ≤ b && b ≤ 17 then [4]
  else [2]

/-- A block has a domain that is in use. -/
def Dev.pmcOn (d : Dev) (b : Nat) : Bool := (pmcDomains b).any fun x => (d.domain x).state == .on || (d.domain x).state == .draining

/-- The cycle counter of block b (R574). -/
def Dev.pmcCyc (d : Dev) (b : Nat) : Nat :=
  match tget d.pmc.base b with
  | some t => (d.clk.ticks - t) % 2 ^ 64
  | none => 0

/-- Cycle counters start with their block's first domain and return to 0 without one (R574). -/
def Dev.pmcBases (d : Dev) : Dev :=
  forEach 20 d fun d b =>
    if d.pmcOn b then
      if (tget d.pmc.base b).isSome then d else { d with pmc := { d.pmc with base := tset d.pmc.base b d.clk.ticks } }
    else { d with pmc := { d.pmc with base := tdel d.pmc.base b } }

/-- Counter k of block b as it stands. -/
def Dev.pmcVal (d : Dev) (b k : Nat) : Nat := d.rd .PMC_CNT_LO [b, k] + d.rd .PMC_CNT_HI [b, k] * 2 ^ 32

/-- Every PMC_SNAP register of every block, as `old` left the counters (R570). -/
def Dev.pmcSnapshot (d old : Dev) : Dev :=
  forEach 20 d fun d b =>
    let d := { d with pmc := { d.pmc with snapCyc := tputN d.pmc.snapCyc b (old.pmcCyc b) } }
    forEach 8 d fun d k =>
      { d with pmc := { d.pmc with snapCnt := tputN d.pmc.snapCnt (8 * b + k) (old.pmcVal b k) } }

/-- PST_PEND(w) (R586). -/
def Dev.pendWord (d : Dev) (w : Nat) : Nat :=
  (List.range 32).foldl (fun v i => if 32 * w + i < 190 && d.pendOf (32 * w + i) then v + 2 ^ i else v) 0

/-- WHIP_OUT's ball belongs to PPS_OUT[3] (R457, R572). -/
def Dev.outLost (d : Dev) : Bool := d.flag .WHP_CFG [] 30 && d.flag .TIM_PPSO_CFG [3] 31

/-- The 64 bytes of the snapshot record of a Whip due for beat n, from what beat n - 1 left (R571). -/
def Dev.whipRecord (old : Dev) (n seq : Nat) (l : List WhipDue) : Bytes :=
  let src := l.foldl (fun v w => v ||| w.src) 0
  let fault := ((l.find? fun w => w.fault != 0xFFFF).map (·.fault)).getD 0xFFFF
  let merged := 1 < l.length || 1 < ((List.range 5 ++ [6]).filter (bit src)).length
  let flags := (if merged then 0x80 else 0) + (if old.halt then 0x40 else 0) + (if old.clk.det then 0x20 else 0)
  bytesOfNat 8 n ++ bytesOfNat 8 ((l.head?.map (·.trig)).getD 0) ++ bytesOfNat 2 src ++ bytesOfNat 2 seq ++
  [BitVec.ofNat 8 (stateCode old.pair.state), BitVec.ofNat 8 flags] ++ bytesOfNat 2 fault ++
  ((List.range 6).flatMap fun w => bytesOfNat 4 (old.pendWord w)) ++ List.replicate 16 0#8

/-- A Whip that a held record keeps from latching (R570). -/
def Dev.whipMiss (d : Dev) : Dev := ((((d.count .WHP_MISSED []).irq .WHP_INT_STAT 1).pmcEvent 16 2)).raise 99

/-- The Whips due for beat n latch, at the boundary that starts it; `old` is the device as beat n - 1 left it (R570,
R572). The time bases latch apart, once their boundary changes are made (R466). -/
def Dev.whipLatch (d old : Dev) (n : Nat) : Dev :=
  let l := d.whip.due.filter fun w => w.due == n
  if l.isEmpty then d else
  let d := { d with whip := { d.whip with due := d.whip.due.filter fun w => n < w.due } }
  let d := { d with time := { d.time with snapReq := true } }
  if d.flag .WHP_CFG [] 31 && d.flag .WHP_STAT [] 31 then d.whipMiss
  else
    let seq := (d.whip.seq + 1) % 2 ^ 16
    let b := old.whipRecord n seq l
    let d := { d with whip := { d.whip with
      seq := seq, words := (List.range 16).map fun i => BitVec.ofNat 32 (field b (4 * i) 4),
      outLevel := d.flag .WHP_CFG [] 30 && !d.outLost && !d.outputsOff } }
    (((d.pmcSnapshot old).setStat .WHP_STAT [] (2 ^ 31)).irq .WHP_INT_STAT 0).pmcEvent 16 1

/-- A write of WHP_CTL.FIRE = 1 (R567). -/
def Dev.whipFire (d : Dev) : Dev := d.whipTrigger 1 0xFFFF

/-- A rising edge of WHIP_IN after `lowNs` of low (R567, R573). -/
def Dev.whipIn (d : Dev) (lowNs : Nat) : Dev := if 50 ≤ lowNs && d.whipEn 0 then d.whipTrigger 0 0xFFFF else d

/-- TIME and BEAT triggers are evaluated here (R568). -/
def Dev.whipEvaluates (d : Dev) : Bool := d.pair.state != .standby && d.pair.state != .syncing

/-- The target of the time trigger in 2^-40 ns (R589). -/
def Dev.whipTarget (d : Dev) : Nat :=
  (d.fld .WHP_TM_CFG [] 15 0 * 2 ^ 32 + d.rd .WHP_TM_SEC_LO) * secUnits + d.fld .WHP_TM_NS [] 29 0 * 2 ^ 40

/-- The time trigger fires in the CCLK under way; the arming then clears (R567). -/
def Dev.whipTime (d : Dev) : Dev :=
  if d.whipEn 3 && d.whipEvaluates && d.clk.run && d.flag .WHP_TM_CFG [] 31 &&
     d.whipTarget ≤ tbValue (d.tb (d.fld .WHP_TM_CFG [] 29 28)) d.now then
    (d.wrFld .WHP_TM_CFG [] 31 31 0).whipTrigger 3 0xFFFF
  else d

/-- The beat trigger fires, once in its beat (R567). -/
def Dev.whipBeat (d : Dev) : Dev :=
  if d.whipEn 4 && d.whipEvaluates && d.clk.run && d.beat == d.rd .WHP_BEAT_LO + d.rd .WHP_BEAT_HI * 2 ^ 32 &&
     !(d.whip.due.any fun w => w.src == 16 && w.trig == d.beat) then d.whipTrigger 4 0xFFFF
  else d

/-- The ball that PPS_OUT[3] drives shows no WHIP_OUT (R457). -/
def Dev.whipOutLost (d : Dev) : Dev := if d.outLost then { d with whip := { d.whip with outLevel := false } } else d

/-- WHIP_OUT has fallen (R572). -/
def Dev.whipOutEnd (d : Dev) : Dev := { d with whip := { d.whip with outLevel := false } }

/-- WHIP_OUT falls 600 CCLK after it rose at CCLK 0 (R572). -/
def Dev.whipOutFall (d : Dev) : Dev := if 600 ≤ d.clk.cclk then d.whipOutEnd else d

/-- Level of WHIP_OUT in the CCLK under way: a pulse of 600 CCLK from CCLK 0 (R572). -/
def Dev.whipOutPin (d : Dev) : Bool := d.whip.outLevel && d.clk.cclk < 600

end Sys2Proof.Machine
end

