-- ==== Sys2Proof/Machine/Power.lean ====
section
/-! DEFINITION. Power domains and the junction temperature (R612-R618). -/

namespace Sys2Proof.Machine

/-- A domain the host may switch (R612). -/
def domSwitched (x : Nat) : Bool := (5 ≤ x && x ≤ 21) || (30 ≤ x && x ≤ 33)

/-- RAMP of a domain, in beats (R612). -/
def domRamp (x : Nat) : Nat :=
  if 5 ≤ x && x ≤ 12 then 64 else if 13 ≤ x && x ≤ 21 then 256 else if 30 ≤ x && x ≤ 33 then 32 else 0

/-- PWR_DOM_CTL(x).ON in effect (R625). -/
def Dev.domCmd (d : Dev) (x : Nat) : Bool :=
  if x < 5 then true
  else if x ≤ 20 then d.flag .PWR_DOM_CTL_SW [x - 5] 31
  else if x == 21 then d.flag .PWR_DOM_CTL_RDG [] 31
  else if x ≤ 29 then d.chEn (x - 22)
  else d.flag .PWR_DOM_CTL_LOFT [x - 30] 31

/-- The Loft holds a unit that a pipe of this number processed (R615). -/
def Dev.loftHolds (d : Dev) (pipe : Nat) : Bool :=
  let mine := fun (u : Pkt) => u.pipe == pipe && !u.ghost
  (d.loft.queues.any fun (e : Nat × List QEntry) => (unitsOf e.2).any mine) ||
  (d.loft.relay.any fun (e : Nat × List Pkt) => e.2.any mine) ||
  (d.loft.toPush.any fun (e : Nat × List Pkt) => e.2.any mine) ||
  (d.loft.tx.any fun (e : Nat × TxUnit) =>
    mine e.2.pkt && d.now < e.2.start + lineCclk (d.rate e.1) e.2.pkt.bytes.length) ||
  (d.ports.thatch.any fun (e : Nat × ThatchDyn) =>
    match e.2.txOwner with | some u => mine u && !e.2.txLeft.isEmpty | none => false)

/-- A pipe has units left to process: Outbound k reads client ports, Inbound k line ports (R615). -/
def Dev.pipeWaits (d : Dev) (k : Nat) (line : Bool) : Bool :=
  d.ports.arrivals.any fun a => !a.taken && isLine a.port == line && drayOf a.port == k

/-- The drain condition of a domain at the boundary that starts beat n (R615). -/
def Dev.drained (d : Dev) (n x : Nat) : Bool :=
  if 5 ≤ x && x ≤ 12 then
    let k := (x - 5) / 2
    if x % 2 == 1 then !d.pipeWaits k false && (d.relayQ k).isEmpty && !d.loftHolds k
    else
      !d.pipeWaits k true && !d.loftHolds (4 + k) &&
      !(d.ports.verdicts.any fun v => drayOf v.port == k) && !(d.ports.sfs.any fun v => drayOf v.port == k)
  else if 30 ≤ x then d.bankHeld (x - 30) == 0
  else (d.domain x).since < n

/-- A SerDes domain is reset: the status of its lanes and their phases are cleared on both sides, and its ports lock and train
again; the boundaries sample their links (R106, R579, R617). -/
def Dev.retrain (d : Dev) (x : Nat) : Dev :=
  forEach 64 d fun d p =>
    if serdesDom p == x then
      d.setPort p { d.port p with
        pcs := false, fec := false, sig := false, lanes := [], ltDone := false, phNow := 0, phPrev := 0, phUse := 0 }
    else d

/-- The losses of a domain that enters OFF (R617). -/
def Dev.domLoss (d : Dev) (x : Nat) : Dev :=
  if 5 ≤ x && x ≤ 12 then
    let k := (x - 5) / 2
    if x % 2 == 1 then
      let d := d.coach.dyn.foldl (fun (d : Dev) (e : Nat × CoachDyn) =>
        if d.pnDray e.1 == k then d.modCo e.1 skipAhead else d) d
      d.clearDray k
    else d.clearProbe k
  else if x == 21 then d.ridgeOff
  else if x ≤ 20 then d.retrain x
  else d

/-- What a domain that comes ON after it was OFF starts with: full policer buckets (R617). -/
def Dev.domStart (d : Dev) (n x : Nat) : Dev :=
  if 5 ≤ x && x ≤ 11 && x % 2 == 1 then
    d.coach.dyn.foldl (fun (d : Dev) (e : Nat × CoachDyn) =>
      if d.pnDray e.1 == (x - 5) / 2 then d.policerReset e.1 (n * 1200) true else d) d
  else d

/-- A domain changes state at the boundary that starts beat n. Whether it is still without what it lost in OFF stands until it is ON
(R614, R617). -/
def Dev.domTo (d : Dev) (n x : Nat) (s : DomState) (pend : Bool) : Dev :=
  let anew := match s with | .powering => true | .draining => (d.domain x).anew | _ => false
  let d := (d.setDomain x ⟨s, pend, n, anew⟩).irq .PWR_INT_STAT 0
  d.pmcBases

/-- POWERING ends after RAMP beats (R614). -/
def Dev.rampDone (d : Dev) (n x : Nat) : Dev :=
  let v := d.domain x
  if v.state == DomState.powering && v.since + domRamp x ≤ n then
    if d.domCmd x then (d.domTo n x .on false).domStart n x else d.domTo n x .draining false
  else d

/-- The drain condition of a draining domain is tested (R614, R615). -/
def Dev.drainDone (d : Dev) (n x : Nat) : Dev :=
  let v := d.domain x
  if v.state == DomState.draining && d.drained n x then
    if v.pendingOn then (if v.anew then (d.domTo n x .on false).domStart n x else d.domTo n x .on false) else (d.domTo n x .off false).domLoss x
  else d

/-- The committed ON of a domain is applied (R614). -/
def Dev.domApply (d : Dev) (n x : Nat) : Dev :=
  let v := d.domain x
  let on := d.domCmd x
  match v.state with
  | .off => if on then d.domTo n x .powering false else d
  | .on => if on then d else d.domTo n x .draining false
  | .draining => if v.pendingOn == on then d else d.setDomain x { v with pendingOn := on }
  | .powering => d

/-- The supply of a domain is not where RAMP says it must be by now (R614). -/
def Dev.supplyBad (d : Dev) (n x : Nat) (bad : List Nat) : Bool :=
  let v := d.domain x
  bad.contains x && (v.since != 0 || v.state == DomState.powering) && v.since + domRamp x == n && (v.state == DomState.powering || v.state == DomState.off)

/-- The moves of every switchable domain at the boundary that starts beat n: commits first, drains after them (R614). -/
def Dev.domBoundary (d : Dev) (n : Nat) (bad : List Nat) : Dev :=
  let l := (List.range 34).filter domSwitched
  let d := l.foldl (fun d x => if d.supplyBad n x bad then d.setCond (100 + x) true else d) d
  let d := l.foldl (fun d x => (d.domApply n x).rampDone n x) d
  l.foldl (fun d x => d.drainDone n x) d

/-- A boundary before beat 0: a domain that has powered for RAMP beats is ON, or its supply is not good (R606, R614). Such a
boundary is numbered by the beats since reset release. -/
def Dev.domRamps (d : Dev) (bad : List Nat) : Dev :=
  let n := d.clk.ticks / 1200
  ((List.range 34).filter domSwitched).foldl (fun d x =>
    let v := d.domain x
    if d.supplyBad n x bad then d.setCond (100 + x) true
    else if v.state == DomState.powering && v.since + domRamp x ≤ n then d.domTo n x .on false
    else d) d

/-! Temperature, in quarter degrees. -/

/-- THROTTLE_C in quarter degrees. -/
def Dev.throttleAt (d : Dev) : Int := (4 * d.fld .PWR_THERM [] 7 0 : Nat)

/-- A throttle ends after 1,048,576 readings at or below THROTTLE_C - 5 degrees (R618). -/
def Dev.throttleEnd (d : Dev) : Dev :=
  if d.power.throttle && 1048576 ≤ d.power.cool then
    { d with power := { d.power with throttle := false, cool := 0 } }.irq .PWR_INT_STAT 1
  else d

/-- A throttle starts (R618). -/
def Dev.throttleStart (d : Dev) : Dev :=
  let d := { d with power := { d.power with throttle := true, cool := 0 } }
  ((((d.irq .PWR_INT_STAT 1).count .PWR_THROTTLE_CNT []).pmcEvent 18 1).raise 2).voidDet 2

/-- The junction reading of a boundary (R618). -/
def Dev.readTemp (d : Dev) (t : Int) : Dev :=
  let d := d.throttleEnd
  let d := { d with power := { d.power with
    now := t, max := max d.power.max t, cool := if t ≤ d.throttleAt - 20 then d.power.cool + 1 else 0 } }
  let d := if (4 * d.fld .PWR_THERM [] 15 8 : Nat) ≤ t then d.irq .PWR_INT_STAT 2 else d
  let d := if d.throttleAt ≤ t && !d.power.throttle then d.throttleStart else d
  d.setCond 3 (500 ≤ t)

end Sys2Proof.Machine
end

