-- ==== Sys2Proof/Machine/Boot.lean ====
section
/-! DEFINITION. The start sequence (R606-R610), the configuration image (R600-R605) and the flash operations of the host
(R597, R611, R623). -/

namespace Sys2Proof.Machine

/-! The image in the flash. -/

/-- Base of an image slot (R596). -/
def imgBase (s : Nat) : Nat := s * 0x800000

/-- A field of the image in slot s. -/
def Dev.img (d : Dev) (s off n : Nat) : Nat := natOfBytes (flashRead d.board.flash (imgBase s + off) n)

/-- LENGTH and SEQ of the header (R600). -/
def Dev.imgLen (d : Dev) (s : Nat) : Nat := d.img s 16 4
def Dev.imgSeq (d : Dev) (s : Nat) : Nat := d.img s 12 4

/-- The header makes the slot a candidate (R603). -/
def Dev.imgHeader (d : Dev) (s : Nat) : Bool :=
  d.img s 0 4 == 0x464A5849 && d.img s 4 2 == 1 && d.img s 6 2 == 0x3200 && d.img s 8 1 == 0xA2 &&
  d.imgLen s % 4 == 0 && within (d.imgLen s) 256 8388608

/-- The image digest (R602). -/
def Dev.imgDigest (d : Dev) (s : Nat) : BitVec 384 :=
  BitVec.ofNat 384 (sha384N (flashRead d.board.flash (imgBase s) (d.imgLen s - 96))).toNat

/-- The image key hash of the life-cycle state, when its OTP item is valid (R240, R245). -/
def Dev.imageKeyHash (d : Dev) : Option (BitVec 384) :=
  match d.vault.lc with
  | .owner => match tget d.board.otp.ownerHash d.vault.epoch with | some (h, ok) => if ok then some h else none | none => none
  | _ => if otpFits d.board.otp .vendorHash then some d.board.otp.vendorHash else none

/-- The signer's hash fits (R602). -/
def Dev.imgSigner (d : Dev) (s : Nat) : Bool :=
  some (sha384N (flashRead d.board.flash (imgBase s + 32) 96)) == d.imageKeyHash

/-- The signature verifies under SIGNER (R602). -/
def Dev.imgSigned (d : Dev) (s : Nat) : Bool :=
  let sig := imgBase s + d.imgLen s - 96
  let f := d.board.flash
  ecdsaVerify (d.img s 32 48, d.img s 80 48) (d.imgDigest s).toNat (natOfBytes (flashRead f sig 48))
    (natOfBytes (flashRead f (sig + 48) 48))

/-- Directory entry i: TYPE, OFFSET, LENGTH, RECORDS (R601). -/
def Dev.imgDir (d : Dev) (s i : Nat) : Nat × Nat × Nat × Nat :=
  let o := 128 + 16 * i
  (d.img s o 2, d.img s (o + 4) 4, d.img s (o + 8) 4, d.img s (o + 12) 4)

/-- Record size of a section type (R601). -/
def recSize (t : Nat) : Nat := if t == 1 then 8 else if t == 2 then 16 else 40

/-- The directory's entries fit: types rising, sizes, no overlap, all before the signature (R601). -/
def dirOk : Nat → Nat → Nat → List (Nat × Nat × Nat × Nat) → Bool
  | _, _, _, [] => true
  | t0, at_, last, (t, o, l, r) :: rest =>
    t0 < t && t ≤ 3 && at_ ≤ o && o + l ≤ last && l == r * recSize t && dirOk t (o + l) last rest

/-- The sections of the image, when its directory fits. -/
def Dev.imgSections (d : Dev) (s : Nat) : Option (List (Nat × Nat × Nat × Nat)) :=
  let n := d.img s 10 2
  if !within n 1 3 then none else
  let l := (List.range n).map (d.imgDir s)
  if dirOk 0 (128 + 16 * n) (d.imgLen s - 96) l then some l else none

/-- Records of the section of a type: the image offset of each. -/
def recordsOf (l : List (Nat × Nat × Nat × Nat)) (t : Nat) : List Nat :=
  match l.find? fun e => e.1 == t with
  | some (_, o, _, n) => (List.range n).map fun i => o + i * recSize t
  | none => []

/-- Bits of a word that an image may set: RWS, RW, and the RO fields the manual names (R604). -/
def imgMask (k : Nat) : Nat :=
  match regAt k with
  | some (r, _) => r.row.rws ||| r.row.rw ||| r.row.img
  | none => 0

/-- The bits a record gives at a key, when R604 allows it, an RW field out of its range as the nearest value (R627); a later
record replaces an earlier one. -/
def imgWord (w : Tab Word) (k v : Nat) (strict : Bool) : Option (Tab Word) :=
  match regAt k with
  | none => none
  | some (r, _) =>
    let v' := mergeBits v r.row.rw (clampWrite r v)
    if strict && v &&& (0xFFFFFFFF ^^^ imgMask k) != 0 then none else some (tset w k (BitVec.ofNat 32 (v' &&& imgMask k)))

/-- The SETTINGS section put into the shadow (R601, R604). -/
def Dev.imgSettings (d : Dev) (s : Nat) (l : List Nat) (w : Tab Word) : Option (Tab Word) :=
  l.foldl (fun (w : Option (Tab Word)) o =>
    match w with
    | none => none
    | some w => let k := d.img s o 4; if k < 0x800000 then imgWord w k (d.img s (o + 4) 4) true else none) (some w)

/-- The key of a TABLES record, when table, entry and word exist (R604). -/
def tabWordKey (t e w : Nat) : Option Nat :=
  match tabShape t with
  | some (n, m) => if e < n && w < m then some (tabKey t e w) else none
  | none => none

/-- The TABLES section put into the shadow (R601, R604). -/
def Dev.imgTables (d : Dev) (s : Nat) (l : List Nat) (w : Tab Word) : Option (Tab Word) :=
  l.foldl (fun (w : Option (Tab Word)) o =>
    match w with
    | none => none
    | some w =>
      match tabWordKey (d.img s o 2) (d.img s (o + 4) 4) (d.img s (o + 8) 2) with
      | none => none
      | some k => if (regAt k).isNone then some w else imgWord w k (d.img s (o + 12) 4) false) (some w)

/-- Words with what an image gives put in; every other bit stands. -/
def applyShadow (img w : Tab Word) : Tab Word :=
  img.foldl (fun (w : Tab Word) (e : Nat × Word) => setWord w e.1 (mergeBits (wordAt w e.1) (imgMask e.1) e.2.toNat)) w

/-- A register of the RDG block, whose image values take effect when the image is loaded (R545). -/
def isRidgeReg (k : Nat) : Bool := 0x420000 ≤ k && k < 0x430000

/-- The words become `w`, and Ridge lanes follow a change of MODE. -/
def Dev.putRidge (d : Dev) (w : Tab Word) : Dev := forEach 16 { d with words := w } fun e j => e.laneMode j (d.prbsMode j)

/-- The values of the loaded image replace those of the RDG block (R545). -/
def Dev.loadRidge (d : Dev) : Dev :=
  d.putRidge (applyShadow (d.boot.shadow.filter fun (e : Nat × Word) => isRidgeReg e.1) d.words)

/-- The RDG values of a slot that failed are discarded: their registers reset (R545, R603). -/
def Dev.forgetRidge (d : Dev) : Dev :=
  if d.boot.imageEnd then
    d.putRidge (d.words.filter fun (e : Nat × Word) => !(isRidgeReg e.1 && (tget d.boot.shadow e.1).isSome))
  else d

/-- The device as the shadow's settings would have it. -/
def Dev.shadowed (d : Dev) : Dev := { d with words := applyShadow d.boot.shadow d.words }

/-- A LINES record: line key, entry bits, position states (R601). -/
def Dev.imgLine (d : Dev) (s o : Nat) : Option (Nat × BitVec 240 × Nat) :=
  let c := d.img s o 1
  let region := d.img s (o + 1) 1
  let line := d.img s (o + 4) 4
  let pos := d.img s (o + 38) 1
  let e := d.shadowed
  let size := if region == 0 then dataBase else e.dataLines c
  if c < 8 && region ≤ 1 && line < size && e.chEn c && pos &&& 0xAA == 0 then
    some (lineKey c (if region == 0 then line else dataBase + line), BitVec.ofNat 240 (d.img s (o + 8) 30), pos)
  else none

/-- LINES records that no later record for their line replaces (R604). -/
def lastLines : List (Nat × BitVec 240 × Nat) → List (Nat × BitVec 240 × Nat)
  | [] => []
  | e :: r => if r.any (·.1 == e.1) then lastLines r else e :: lastLines r

/-- The LINES section (R604). -/
def Dev.imgLines (d : Dev) (s : Nat) (l : List Nat) : Option (List (Nat × BitVec 240 × Nat)) :=
  let r := l.map (d.imgLine s)
  if r.all Option.isSome then some (lastLines (r.filterMap id)) else none

/-- SETTINGS and TABLES of a slot. -/
def Dev.imgShadow (d : Dev) (s : Nat) : Option (Tab Word) :=
  match d.imgSections s with
  | none => none
  | some l => (d.imgSettings s (recordsOf l 1) []).bind fun w => d.imgTables s (recordsOf l 2) w

/-- The words that the image wrote, as one batch for the checks of VALUE (R604). -/
def Dev.imgEntries (d : Dev) (s : Nat) : List Entry :=
  match d.imgSections s with
  | none => []
  | some l =>
    ((recordsOf l 1).map fun o => Entry.word (d.img s o 4) (BitVec.ofNat 32 (d.img s (o + 4) 4))) ++
    ((recordsOf l 2).map fun o =>
      Entry.word (tabKey (d.img s o 2) (d.img s (o + 4) 4) (d.img s (o + 8) 2)) (BitVec.ofNat 32 (d.img s (o + 12) 4)))

/-- The enabled lengths of a family are distinct (R342). -/
def Dev.lengthsOk (d : Dev) (v6 : Bool) : Bool :=
  let l := d.dlens v6
  (l.map fun r => bits r 30 24).eraseDups.length == l.length

/-- Largest data region of a density; none for the code not used (R347, R380). -/
def largestData (density : Nat) : Option Nat :=
  if density == 0 then some 524224 else if density == 1 then some 1572800 else if density == 2 then some 3669952 else none

/-- R347 and R350 for a channel: its density, DATA_LINES within the limit; on an enabled one every data line within DATA_LINES. -/
def Dev.channelOk (d : Dev) (c : Nat) : Bool :=
  (match largestData (d.fld .TBM_CH_CFG [c] 30 29) with
    | some m => d.dataLines c ≤ m
    | none => false) &&
  (d.dlens false ++ d.dlens true).all fun w => !d.chEn c || (bits w 18 0 * 16 + 2 ^ bits w 23 19 - 1) / 2 < d.dataLines c

/-- The claims of R605 on the table memory: channel pairs, densities, data lines, and lengths (R342, R347, R350). -/
def Dev.claimsOk (d : Dev) : Bool :=
  ((List.range 4).all fun k =>
    d.chEn (2 * k) == d.chEn (2 * k + 1) && d.chLines (2 * k) == d.chLines (2 * k + 1) &&
    d.dataLines (2 * k) == d.dataLines (2 * k + 1) && d.channelOk (2 * k)) &&
  d.lengthsOk false && d.lengthsOk true

/-- The content check: every refusal cause of R46 but NOT_READY, LATE, FULL and HORIZON (R604). -/
def Dev.imgContent (d : Dev) (s : Nat) : Bool :=
  match d.imgShadow s with
  | none => false
  | some w =>
    let e := { d with boot := { d.boot with shadow := w } }
    let new := e.shadowed
    let es := d.imgEntries s
    -- a SETTINGS value may carry reserved and strobe bits at 0: the fields the image sets are checked as they result
    (keysOf es).all (fun k => (regAt k).isNone || new.wordOk k (wordAt new.words k)) &&
    -- the image may turn PD21 off (R625), so the clause of R613 about the pair state does not apply
    e.modeOk new && { new with pair := { new.pair with state := .solo } }.settingsOk && !new.incOwned es && new.dataRequestsOk es && new.requestsFit es && new.basesOk es 0 &&
    new.claimsOk &&
    (match d.imgSections s with
     | some l => (e.imgLines s (recordsOf l 3)).isSome
     | none => false)

/-! Trying the slots. -/

/-- Outcome recorded for an image slot (R620). -/
def Dev.slotCause (d : Dev) (s : Nat) : Nat := if s == 0 then d.boot.cause0 else d.boot.cause1
def Dev.setSlotCause (d : Dev) (s v : Nat) : Dev :=
  if s == 0 then { d with boot := { d.boot with cause0 := v } } else { d with boot := { d.boot with cause1 := v } }

/-- BOOT_STAT.STAGE while the sequence runs: the first stage that has not ended (R606; log entry 22). -/
def Dev.bootShow (d : Dev) : Dev :=
  let b := d.boot
  if b.stage == 15 || b.stage == 8 then d else
  let n := if !b.clockEnd then 1 else if !b.vaultEnd then 2 else if !b.flashEnd then 3 else if !b.imageEnd then 4
    else if !b.verifyEnd then 5 else if !b.keysEnd then 6 else 7
  { d with boot := { b with stage := n } }

/-- A domain's state changes before beat 0 (R612, R626). -/
def Dev.startDomain (d : Dev) (x : Nat) (v : DomState) : Dev :=
  if (d.domain x).state == v then d
  else (d.setDomain x ⟨v, false, d.clk.ticks / 1200, v == DomState.powering⟩).irq .PWR_INT_STAT 0

/-- A domain's state as the start sequence sets it; a table-memory channel that is powered trains, and a supply that the stage
finds not good is a fault (R365, R606, R614). -/
def Dev.bootDomain (d : Dev) (x : Nat) (v : DomState) : Dev :=
  if (d.domain x).state == v then d
  else if (d.domain x).state == DomState.powering && v == DomState.on && d.board.pins.badDomains.contains x then
    d.setCond (100 + x) true
  else
  let d := d.startDomain x v
  if 22 ≤ x && x ≤ 29 then
    { d with tbm := { d.tbm with train := tputN d.tbm.train (x - 22) (if v == DomState.on then 1 else 0),
                                 ready := tputN d.tbm.ready (x - 22) 0 } }
  else d

/-- The domains and channels the slot's settings set ON begin to come up (R606, R612). -/
def Dev.powerShadow (d : Dev) (s : DomState) : Dev :=
  let e := d.shadowed
  let l := ((List.range 34).filter fun x => 5 ≤ x && x != 21)
  let d := l.foldl (fun (d : Dev) x =>
    let want := e.domCmd x
    if want && s == DomState.powering && d.domOn x then d else
    d.bootDomain x (if !want then DomState.off else if 22 ≤ x && x ≤ 29 then DomState.on else s)) d
  d.pmcBases

/-- Candidates left, in the order R603 tries them. -/
def Dev.candidatesLeft (d : Dev) : List Nat :=
  let l := [0, 1].filter fun s => d.slotCause s == 0
  if l == [0, 1] && d.imgSeq 0 < d.imgSeq 1 then [1, 0] else l

/-- Try the next candidate, or stop with NO_IMAGE (R603). -/
def Dev.nextSlot (d : Dev) : Dev :=
  match d.candidatesLeft with
  | [] => d.raise 17
  | s :: _ =>
    let d := { d with boot := { d.boot with slot := s, shadow := (d.imgShadow s).getD [], lines := [] } }
    d.powerShadow .powering

/-- A slot fails: its values are discarded, and the other is tried (R603). -/
def Dev.slotFails (d : Dev) (cause : Nat) : Dev :=
  let d := (d.setSlotCause d.boot.slot cause).forgetRidge
  let d := { d with boot := { d.boot with
    fallback := true, shadow := [], lines := [], imageEnd := false, verifyEnd := false, digest := 0, imgSeq := 0 } }
  d.nextSlot.bootShow

/-! The stages. -/

/-- F019 and LIFE_WARN (R598, R621). -/
def Dev.lifeCheck (d : Dev) : Dev :=
  let past : Bool := d.rd .BOOT_LIFE_WARN ≤ d.boot.life
  let d := if past && !(d.src 19).cond then d.irq .BOOT_INT_STAT 2 else d
  d.setCond 19 past

/-- Stage CLOCK ends: the PLL locks or not; PD01-PD03 and PD21 are powered, the fuses are read (R606, R244). -/
def Dev.clockStage (d : Dev) (locked : Bool) : Dev :=
  if !locked then d.setCond 0 true else
  let f := fuseState d.otp
  let d := { d with clk := { d.clk with pllLock := true }, vault := { d.vault with lc := f.1, epoch := f.2 } }
  let d := [1, 2, 3, 21].foldl (fun (d : Dev) x => d.startDomain x .on) d
  let d := { d with boot := { d.boot with clockEnd := true } }
  d.pmcBases.bootShow

/-- Stage VAULT ends once the root is regenerated and the engine has passed; the generator's tests pass or not
(R606, R253, R256). -/
def Dev.vaultStage (d : Dev) (ok : Bool) : Dev :=
  if !d.vault.rootOk || !d.vault.engOk then d
  else if !ok then d.raise 7
  else
    let d := { d with vault := { d.vault with trngOk := true } }.initStore
    { d with boot := { d.boot with vaultEnd := true } }.bootShow

/-- Stage FLASH ends: SFDP, both headers and both life records (R595, R603, R606). -/
def Dev.flashStage (d : Dev) (ok : Bool) (info : Word) : Dev :=
  let dens := bits info.toNat 31 24
  -- SFDP, two headers and two life records (log entry 91)
  let d := d.pmcSpread 1 1 (Config.sfdpBytes + 2 * 128 + 2 * 4096)
  if !ok || dens < 28 then d.bootStop 3 else
  let d := { d with boot := { d.boot with
    flashEnd := true, jedec := bits info.toNat 23 0, density := dens, life := (lifeCount d.board.flash).2 } }
  let d := [0, 1].foldl (fun (d : Dev) s => if d.imgHeader s then d else d.setSlotCause s 2) d
  d.lifeCheck.nextSlot.bootShow

/-- Every enabled channel shows READY (R606). -/
def Dev.channelsReady (d : Dev) : Bool := (List.range 8).all fun c => !d.shadowed.chEn c || tgetD d.tbm.ready c 0 == 1

/-- Stage IMAGE ends: the slot is read, hashed, checked and loaded (R545, R603, R604). -/
def Dev.imageStage (d : Dev) (ok : Bool) : Dev :=
  let s := d.boot.slot
  -- the image is read once (log entry 91)
  let e := d.pmcSpread 1 1 (d.imgLen s)
  if !ok then (e.raise 16).slotFails 3
  else if !d.imgSigner s then e.slotFails 4
  else if !d.imgContent s then e.slotFails 5
  else if !d.channelsReady then d
  else
    let d := e
    let lines := ((d.imgSections s).bind fun l => d.imgLines s (recordsOf l 3)).getD []
    let d := { d with boot := { d.boot with
      lines := lines, digest := d.imgDigest s, imgSeq := d.imgSeq s, imageEnd := true } }
    (d.loadRidge.powerShadow .on).bootShow

/-- Stage VERIFY ends: the signature verifies or not (R603). -/
def Dev.verifyStage (d : Dev) : Dev :=
  if d.imgSigned d.boot.slot then
    { d.setSlotCause d.boot.slot 1 with boot := { (d.setSlotCause d.boot.slot 1).boot with verifyEnd := true } }.bootShow
  else d.slotFails 6

/-- Stage KEYS ends: floor records and CK slots, 524,416 bytes in all (R219, R279, R606). -/
def Dev.keysStage (d : Dev) (ok : Bool) : Dev :=
  let d := d.pmcSpread 1 1 524416
  let d := if ok then
      let r := [d.floorRecord 0, d.floorRecord 1]
      let d := d.pmcSpread 2 1 d.ckLoadBlocks
      { d with floor := { d.floor with recs := r, value := newestFloor r } }.ckLoad
    else d.raise 16
  { d with boot := { d.boot with keysEnd := true } }.bootShow

/-- A stage of the start sequence ends (R606). -/
def Dev.stageEnd (d : Dev) (stage : Nat) (ok : Bool) (info : Word) : Dev :=
  let b := d.boot
  if b.stage == 15 || b.stage == 8 then d else
  match stage with
  | 1 => if b.clockEnd then d else d.clockStage ok
  | 2 => if b.clockEnd && !b.vaultEnd then d.vaultStage ok else d
  | 3 => if b.clockEnd && !b.flashEnd then d.flashStage ok info else d
  | 4 => if b.flashEnd && !b.imageEnd then d.imageStage ok else d
  | 5 => if b.imageEnd && !b.verifyEnd then d.verifyStage else d
  | 6 => if b.verifyEnd && b.vaultEnd && !b.keysEnd then d.keysStage ok else d
  | _ => d

/-- A channel that the image enables trains: it fails a step, an eye of under 8 taps among them, or its lines are written and it
is READY (R365-R367). -/
def Dev.trainChannel (d : Dev) (c failStep margin : Nat) : Dev :=
  if 8 ≤ c || !d.boot.flashEnd || d.boot.imageEnd || d.boot.stage == 15 || !d.shadowed.chEn c || tgetD d.tbm.ready c 0 == 1
  then d
  else if within failStep 1 5 || margin < 8 then
    { d with tbm := { d.tbm with train := tputN d.tbm.train c 3 } }.events (88 + c) 2 1
  else
    -- KT1 and KT2 are drawn before the first line is written (R356)
    let d := if (tget d.tbm.keys 0).isSome then d else
      let a := d.draw
      let b := a.1.draw
      { b.1 with tbm := { b.1.tbm with keys := [(0, a.2), (1, b.2)] } }
    let d := { d with tbm := { d.tbm with lines := d.tbm.lines.filter fun e => e.1 / 2 ^ 22 != c } }.setLine c 0 0
    { d with tbm := { d.tbm with
      train := tputN d.tbm.train c 2, margin := tputN d.tbm.margin c margin, ready := tputN d.tbm.ready c 1 } }

/-! Beat 0. -/

/-- Length word whose buckets hold bucket line n of a family (R312). -/
def Dev.lengthAt (d : Dev) (v6 : Bool) (n : Nat) : Option Nat :=
  (d.dlens v6).find? fun w => bits w 18 0 * 16 ≤ n && n < bits w 18 0 * 16 + 2 ^ bits w 23 19

/-- A placed data slot sets the Bloom bits of its prefix (R610). -/
def Dev.bloomLine (d : Dev) (k id s : Nat) (v : BitVec 240) : Dev :=
  let n := id - 2 ^ 20
  match d.lengthAt false n with
  | some w => d.bloomSet false (bits w 30 24) (dataVal false v s) k
  | none =>
    match d.lengthAt true n with
    | some w => if s < 2 then d.bloomSet true (bits w 30 24) (dataVal true v s) k else d
    | none => d

/-- A LINES record takes effect: its line, its position states, the learn cache and the Bloom bits (R318, R610). -/
def Dev.placeImageLine (d : Dev) (e : Nat × BitVec 240 × Nat) : Dev :=
  let c := e.1 / 2 ^ 22
  let a := e.1 % 2 ^ 22
  let id := if a < dataBase then 2 * a + c % 2 else 2 ^ 20 + 2 * (a - dataBase) + c % 2
  let k := c / 2
  let v := e.2.1
  let d := d.setLine c a v
  forEach 4 d fun d s =>
    if !bit e.2.2 (2 * s) then d.setPos k id s 0
    else
      let d := d.setPos k id s 1
      if a < dataBase then d.cachePut k (d.slotKey id (slot60 v s)) (slot60 v s % 65536) (.bucket id s)
      else d.bloomLine k id s v

/-- The floor record written at beat 0: F' is the smallest step above F not below any start stage (R219). -/
def Dev.firstFloor (d : Dev) : Nat :=
  let top := (d.coachesInUse.filter fun c => d.kind c == .derived).foldl (fun m c => max m (d.startStage c)) 0
  let k := max 1 ((top - d.floor.value + stageStep - 1) / stageStep)
  d.floor.value + k * stageStep

/-- The LINES records take effect, and every generation tag is 0 (R610). -/
def Dev.placeLines (d : Dev) (l : List (Nat × BitVec 240 × Nat)) : Dev :=
  let d := l.foldl (fun d e => d.placeImageLine e) d
  { d with cls := d.cls.map fun (x : Nat × ClsDray) => (x.1, { x.2 with gen := [] }) }

/-- The commit at beat 0 (R21, R58, R610). -/
def Dev.beat0 (d : Dev) (us : Nat) : Dev :=
  if d.boot.stage != 7 || d.halt then d else
  let old := d
  let img := d.boot.shadow.filter fun (e : Nat × Word) => !isRidgeReg e.1
  let es := img.map fun (e : Nat × Word) => Entry.word e.1 e.2
  let d := { d with
    words := applyShadow img d.words, clk := { d.clk with run := true, count := 0, cclk := 0, det := true, voided := false },
    boot := { d.boot with stage := 8, us := us, shadow := [], lines := [] } }
  let d := ((d.irq .BOOT_INT_STAT 0).placeLines old.boot.lines).wordsDone 0 es
  let d := (List.range 512).foldl (fun d q => d.shaperReset q 0) d
  let d := (d.coachesSet.filter fun c => d.fld .CO_ADV [c] 27 16 != 0).foldl (fun d c => d.policerReset c 0 true) d
  let d := forEach 4 d.ckAsk fun d n => ((d.takeInc n).tbConfig n (old.rd .TIM_TB_CFG [n])).tbFinish 0 n
  let d := forEach 64 d fun d p => if d.flag .TIM_PTP_PORT [p] 30 && !d.oneStep p then d.irq .TIM_INT_STAT 10 else d
  let d := (d.coachesSet.filter fun c => d.kind c == .derived).foldl (fun d c => d.restartCoach c) d
  let d := (d.beginFloorWrite d.firstFloor 0).joinQueue
  let d := { d with power := { d.power with dom := d.power.dom.map fun (e : Nat × Domain) => (e.1, { e.2 with since := 0 }) } }
  (d.lifeCheck.domApply 0 21).pmcBases

/-! Flash operations of the host. -/

/-- The device's own writes hold the flash (R597). -/
def Dev.ownWrite (d : Dev) : Bool :=
  d.vault.ckBusy || (match d.floor.write with | some w => !w.done && !w.failed | none => false)

/-- A host operation ends with a result (R623). -/
def Dev.flEnd (d : Dev) (res cause : Nat) : Dev :=
  { d with boot := { d.boot with flJob := none, flRes := res, flCause := cause } }.irq .BOOT_INT_STAT 1

/-- An operation is allowed (R597, R611). -/
def Dev.flAllowed (d : Dev) (op addr len : Nat) : Bool :=
  let other := imgBase (1 - d.boot.slot)
  let inOther := fun (n : Nat) => other ≤ addr && addr + n ≤ other + 0x800000
  match op with
  | 1 => within len 1 256 && addr + len ≤ 0x1084000
  | 2 => addr % 65536 == 0 && inOther 65536
  | 3 => within len 1 256 && inOther len && addr / 256 == (addr + len - 1) / 256
  | 4 => addr == 0 || addr == 0x800000
  | _ => false

/-- A write of BOOT_FL_CTL with GO = 1 (R597, R623). -/
def Dev.flGo (d : Dev) (op len : Nat) : Dev :=
  if d.boot.flJob.isSome || d.boot.flWait.isSome then d else
  let addr := d.rd .BOOT_FL_ADDR
  if !d.flAllowed op addr len then d.flEnd 2 0 else
  let j : FlJob :=
    { op := op, addr := addr, len := len,
      data := if op == 3 then ((List.range 64).flatMap fun i => bytesOfNat 4 (d.rd .BOOT_FL_DATA [i])).take len else [] }
  if d.ownWrite then { d with boot := { d.boot with flWait := some j } }
  else { d with boot := { d.boot with flJob := some j } }

/-- An operation that waited starts when the device's own writes have ended (R597). -/
def Dev.flNext (d : Dev) : Dev :=
  if d.ownWrite || d.boot.flJob.isSome || d.boot.flWait.isNone then d
  else { d with boot := { d.boot with flJob := d.boot.flWait, flWait := none } }

/-- Bytes read, put into BOOT_FL_DATA (R622, R623). -/
def Dev.flData (d : Dev) (b : Bytes) : Dev :=
  let old := (List.range 64).flatMap fun i => bytesOfNat 4 (d.rd .BOOT_FL_DATA [i])
  let new := b ++ old.drop b.length
  forEach 64 d fun d i => d.wr .BOOT_FL_DATA [i] (wordOf new i)

/-- The checks of CHECK on a slot, coded as CAUSE0 (R611). -/
def Dev.flCheck (d : Dev) (s : Nat) : Nat :=
  if !d.imgHeader s then 2 else if !d.imgSigner s then 4 else if !d.imgSigned s then 6 else 1

/-- The host operation under way ends (R597, R598, R611, R623). -/
def Dev.flDone (d : Dev) (ok : Bool) : Dev :=
  match d.boot.flJob with
  | none => d
  | some j =>
    let f := d.board.flash
    match j.op with
    | 1 =>
      let d := d.pmcSpread 1 1 j.len
      if ok then (d.flData (flashRead f j.addr j.len)).flEnd 1 0 else (d.raise 16).flEnd 3 0
    | 2 =>
      let d := if j.addr == 0 || j.addr == 0x800000 then d.lifeRise else d
      if ok then (d.setFlash (flashEraseAt d.board.flash j.addr 65536)).flEnd 1 0
      else ((d.scramble j.addr 65536).raise 18).flEnd 3 0
    | 3 =>
      if ok then ((d.setFlash (flashProgramAt f j.addr j.data)).pmcSpread 1 2 j.len).flEnd 1 0
      else ((d.scramble j.addr j.len).raise 18).flEnd 3 0
    | _ =>
      let s := j.addr / 0x800000
      let d := d.pmcSpread 1 1 (if d.imgHeader s then d.imgLen s else 128)
      if !ok then (d.raise 16).flEnd 3 3
      else
        let c := d.flCheck s
        d.flEnd (if c == 1 then 1 else 4) c

end Sys2Proof.Machine
end

