-- ==== Sys2Proof/Machine/Regs.lean ====
section
/-! DEFINITION. What a host read of each register and table word returns (R13, R48): words that hold what was written or
counted, and the status words computed from the typed state. -/

namespace Sys2Proof.Machine

/-- A bit at a place of a word. -/
def bitAt (b : Bool) (i : Nat) : Nat := b2n b * 2 ^ i

/-- An integer as 32 bits of two's complement. -/
def twos (w : Nat) (v : Int) : Nat := (v % (2 ^ w : Nat)).toNat

/-- SEC_LO, SEC_HI, NS and FRAC of a time-base value in 2^-16 ns (R442). -/
def tsSecLo (v : Nat) : Nat := loOf (stampSec v)
def tsSecHi (v : Nat) : Nat := stampSec v / 2 ^ 32 % 2 ^ 16
def tsNs (v : Nat) : Nat := v / 65536 % 10 ^ 9
def tsFrac (v : Nat) : Nat := v % 65536

/-- A word of a register that resets to zero. -/
def Dev.rd0 (d : Dev) (r : Reg) (ix : List Nat := []) : Nat := (tgetD d.words (r.key ix) 0#32).toNat

/-- A status register has a bit set whose enable is 1 (R635). -/
def Dev.intHolds (d : Dev) (s e : Reg) (ix : List Nat := []) : Bool := d.rd0 s ix &&& d.rd0 e ix != 0

/-- C_v of R635. -/
def Dev.vecHolds (d : Dev) (v : Nat) : Bool :=
  match v with
  | 0 => d.intHolds .HST_INT_STAT .HST_INT_EN
  | 1 => d.intHolds .BEAT_INT_STAT .BEAT_INT_EN
  | 2 => d.intHolds .BOOT_INT_STAT .BOOT_INT_EN
  | 3 => d.intHolds .VLT_INT_STAT .VLT_INT_EN
  | 4 => d.pst.src.any fun (e : Nat × SrcDyn) => decide (e.1 < 190) && e.2.lastInt && d.rd0 .PST_SRC_STAT [e.1] / 2 ^ 31 == 1
  | 5 => d.intHolds .PAIR_INT_STAT .PAIR_INT_EN
  | 6 => d.intHolds .RDG_INT_STAT .RDG_INT_EN
  | 7 => d.intHolds .WHP_INT_STAT .WHP_INT_EN
  | 8 => d.intHolds .TIM_INT_STAT .TIM_INT_EN
  | 9 => d.intHolds .PWR_INT_STAT .PWR_INT_EN
  | 10 => d.intHolds .PMC_INT_STAT .PMC_INT_EN
  | 11 => d.intHolds .TBM_INT_STAT .TBM_INT_EN
  | 12 => d.intHolds .LOFT_INT_STAT .LOFT_INT_EN
  | 13 => d.intHolds .GATE_INT_STAT .GATE_INT_EN
  | 14 => d.intHolds .CLS_INT_STAT .CLS_INT_EN
  | 15 => false
  | n => if n < 20 then d.intHolds .DRY_INT_STAT .DRY_INT_EN [n - 16]
         else if n < 52 then d.intHolds .THP_EVT .THP_EVT_EN [n - 20]
         else false

/-- Every C_v as a 64-bit vector (R635, R651). -/
def Dev.condMask (d : Dev) : Nat := (List.range 52).foldl (fun m v => m + bitAt (d.vecHolds v) v) 0

/-- Code of a switch state, an alignment, a lane state, a domain state and a time-base state (R238, R198, R550, R625,
R469). -/
def swCode : SwState → Nat
  | .empty => 0 | .one => 1 | .ready => 2 | .txAhead => 3 | .grace => 4
def causeCode : ChockCause → Nat
  | .none => 0 | .hardLimit => 1 | .mirrorErr => 2
def alignCode : Align → Nat
  | .hunt => 0 | .presync => 1 | .sync => 2
def laneCode : LaneState → Nat
  | .off => 0 | .search => 1 | .candidate => 2 | .hunt => 3 | .locked => 4
def domCode : DomState → Nat
  | .off => 0 | .powering => 1 | .on => 2 | .draining => 3
def tbCode : TbState → Nat
  | .off => 0 | .free => 1 | .track => 2 | .holdover => 3
def sealCode : SealResult → Nat
  | .none => 0 | .accepted => 1 | .late => 2 | .full => 3 | .horizon => 4 | .overflow => 5 | .value => 6 | .latDec => 7
  | .notReady => 8

/-- CO_STATE but for DLV_REJ (R238). -/
def Dev.coState (d : Dev) (c : Nat) : Nat :=
  let x := d.co c
  let bad := (match x.slotA with | some s => s.rxBad | none => false) || (match x.slotB with | some s => s.rxBad | none => false)
  x.grace % 128 * 2 ^ 24 + bitAt x.probe 22 + bitAt bad 21 + bitAt x.advPend 20 + causeCode x.cause * 2 ^ 18 +
  bitAt x.chock 17 + bitAt (d.nextLoaded c) 16 + swCode x.sw

/-- BOOT_STAT (R620). -/
def Dev.bootStat (d : Dev) : Nat :=
  d.boot.stage * 2 ^ 28 + d.boot.fail * 2 ^ 24 + bitAt d.boot.fallback 23 + d.boot.slot * 2 ^ 22 + d.boot.cause0 * 2 ^ 19 +
  d.boot.cause1 * 2 ^ 16

/-- VLT_STAT (R285). -/
def Dev.vltStat (d : Dev) : Nat :=
  let v := d.vault
  bitAt v.trusted 12 + bitAt v.resetReq 11 + v.epoch * 2 ^ 6 + lcCode v.lc * 2 ^ 4 + bitAt v.trngOk 3 + bitAt v.engOk 2 +
  bitAt v.rootOk 1

/-- BEAT_STAT (R60). -/
def Dev.beatStat (d : Dev) : Nat := bitAt d.clk.det 2 + bitAt d.clk.pllLock 1 + bitAt d.clk.run 0

/-- PAIR_STAT (R518). -/
def Dev.pairStat (d : Dev) : Nat :=
  let p := d.pair
  bitAt d.partnerOk 18 + bitAt p.intact 17 + bitAt p.yield_ 16 + bitAt p.coast 15 + p.partner * 2 ^ 12 + d.arbStat * 2 ^ 10 +
  bitAt p.fenceIn 9 + bitAt (p.roles.headD false) 8 + stateCode p.state

/-- RDG_STAT (R546). -/
def Dev.rdgStat (d : Dev) : Nat :=
  bitAt d.ridge.absent 18 + bitAt d.ridge.peerUp 17 + bitAt d.ridge.linkUp 16 +
  (List.range 16).foldl (fun m j => m + bitAt ((d.lane j).state == LaneState.locked) j) 0

/-- Derivations queued, the one whose four blocks run in the beat still at the head (R211, R258, R288). -/
def Dev.drvQueued (d : Dev) : Nat := d.vault.drv.length + b2n (d.vault.drvDone.isSome && decide (d.clk.cclk < 1024))

/-- PST_STAT, PST_FIRST and PST_RST_CAUSE (R585). -/
def Dev.pstStat (d : Dev) : Nat :=
  bitAt d.pst.fatal 31 + bitAt d.errLow 30 + bitAt d.alertLow 29 +
  ((List.range 190).filter d.pendOf).length
def Dev.pstFirst (d : Dev) : Nat := match d.pst.firstEv with | some (s, _) => 2 ^ 31 + s | none => 0
def Dev.pstCause (d : Dev) : Nat := d.pst.rstKind * 2 ^ 30 + d.pst.rstSrc

/-- PST_SRC_STAT but for PEND and OVF (R587). -/
def Dev.srcStat (d : Dev) (s : Nat) : Nat :=
  let x := d.src s
  bitAt x.cond 30 + bitAt x.severe 29 + bitAt x.errh 28 + x.lastSev * 2 ^ 25 + x.winCnt

/-- PWR_TEMP (R627). -/
def Dev.pwrTemp (d : Dev) : Nat := twos 16 d.power.max * 2 ^ 16 + twos 16 d.power.now

/-- TBM_STAT (R375). -/
def Dev.tbmStat (d : Dev) : Nat :=
  bitAt d.halt 8 + (List.range 8).foldl (fun m c => m + bitAt (tgetD d.tbm.ready c 0 == 1) c) 0

/-- SERIAL, shown once stage CLOCK has read the fuses (R244, R291). -/
def Dev.serialShown (d : Dev) : Nat := if d.boot.clockEnd then d.otp.serial.toNat else 0

/-- VLT_CK_STAT (R293). -/
def Dev.ckStat (d : Dev) : Nat :=
  let v := d.vault
  bitAt v.ckBusy 31 + bitAt v.ckPend 30 + bitAt v.ckExh 29 + bitAt v.ckValid 28 + v.ckSlot * 2 ^ 27 + v.ckLast * 2 ^ 25 +
  v.ck.length

/-- A port status word; EXISTS shows the mode in effect from beat 0 on (R115, R610). -/
def Dev.portStat (d : Dev) (p : Nat) : Nat :=
  if !d.exists_ p then 0 else
  let x := d.port p
  bitAt x.linkUp 4 + bitAt (x.ltDone && d.ltEn p) 3 + bitAt x.fec 2 + bitAt (d.pcsLock p) 1 + bitAt d.clk.run 0

/-- THP_STAT (R198). -/
def Dev.thpStat (d : Dev) (n : Nat) : Nat :=
  let t := d.thatch n
  alignCode t.align * 2 ^ 30 + t.raw * 2 ^ 16 + t.rpt * 2 ^ 8 + bitAt t.csfRx 1 + bitAt t.rdiRx 0

/-- RDG_LANE_STAT (R550). -/
def Dev.laneStat (d : Dev) (j : Nat) : Nat :=
  let x := d.lane j
  x.pos % 2500 * 2 ^ 12 + bitAt x.prbsLock 7 + min x.misses 3 * 2 ^ 3 + laneCode x.state

/-- Debug is allowed in this life-cycle state, once stage CLOCK has read it (R244, R245, R606; log entry 92). -/
def Dev.debugOk (d : Dev) : Bool := d.boot.clockEnd && d.vault.lc != LifeCycle.owner

/-- What RO fields of a register show beside the words held for it, computed from the state; zero where nothing is
computed. Each case is the register's own rule. -/
def Dev.shown (d : Dev) (r : Reg) (ix : List Nat) : Nat :=
  let i := ix.headD 0
  let j := (ix.drop 1).headD 0
  match r with
  | .GLB_INT_SUM_LO => loOf d.condMask
  | .GLB_INT_SUM_HI => hiOf d.condMask
  | .GLB_DBG => bitAt (d.jtag.ir == 0x20 || d.jtag.ir == 0x21) 31 + bitAt d.debugOk 30
  | .BOOT_STAT => d.bootStat
  | .BOOT_IMG_SEQ => d.boot.imgSeq
  | .BOOT_TIME => d.boot.us
  | .BOOT_LIFE => d.boot.life
  | .BOOT_FL_INFO => d.boot.density * 2 ^ 24 + d.boot.jedec
  | .BOOT_FL_STAT => bitAt (d.boot.flJob.isSome || d.boot.flWait.isSome) 31 + d.boot.flRes * 2 ^ 28 + d.boot.flCause * 2 ^ 25
  | .BOOT_DIGEST => (d.boot.digest.extractLsb' (32 * (11 - i)) 32).toNat
  | .VLT_STAT => d.vltStat
  | .VLT_PUF_STAT =>
    bitAt d.vault.pufFail 15 + bitAt d.vault.pufMargin 14 + d.vault.pufTries * 2 ^ 12 + d.vault.pufErrs
  | .VLT_ENG_STAT => d.vault.jobs.length * 2 ^ 17 + d.drvQueued
  | .VLT_MASK_STAT => bitAt d.vault.sweep 31 + bitAt d.vault.gen 30 + d.vault.sweepPos
  | .VLT_SERIAL_LO => loOf d.serialShown
  | .VLT_SERIAL_HI => hiOf d.serialShown
  | .VLT_CK_STAT => d.ckStat
  | .VLT_CK_SEQ => d.vault.ckSeq
  | .VLT_PK_STAT => bitAt d.vault.pk.isSome 31 + d.vault.pkRes * 2 ^ 27
  | .VLT_KCV_LO => loOf d.vault.kcv.toNat
  | .VLT_KCV_HI => hiOf d.vault.kcv.toNat
  | .VLT_LC_STAT => bitAt d.vault.lcBusy 31 + d.vault.lcRes * 2 ^ 27
  | .VLT_CERT_LEN => if d.boot.clockEnd then d.otp.cert.length else 0
  | .VLT_CERT => if d.boot.clockEnd then wordOf d.otp.cert i else 0
  | .VLT_KEK => match tget d.vault.kek i with | some e => 2 ^ 31 + e.uses | none => 0
  | .VLT_PK_OUT => wordOf d.vault.pkOut i
  | .VLT_KW_STAT => d.kwStat i * 2 ^ 28
  | .BEAT_STAT => d.beatStat
  | .BEAT_PHASE => d.clk.cclk
  | .BEAT_COUNT_LO => loOf d.clk.count
  | .BEAT_COUNT_HI => hiOf d.clk.count
  | .BEAT_BATCH_STAT =>
    d.batch.lastSeq * 2 ^ 24 + sealCode d.batch.lastRes * 2 ^ 20 + d.batch.sealed.length * 2 ^ 16 + bitAt d.batch.ovf 15 +
    d.openSize
  | .BEAT_BATCH_BEAT_LO => loOf d.batch.lastBeat
  | .BEAT_BATCH_BEAT_HI => hiOf d.batch.lastBeat
  | .BEAT_BATCH_DONE => bitAt d.batch.any 8 + d.batch.doneSeq
  | .BEAT_DET_VOID_LO => loOf d.clk.voidAt
  | .BEAT_DET_VOID_HI => hiOf d.clk.voidAt
  | .DRY_STAT => bitAt (d.domOn (6 + 2 * i)) 1 + bitAt (d.domOn (5 + 2 * i)) 0
  | .DRY_CPORT_STAT => d.portStat (8 * i + j)
  | .DRY_LPORT_STAT => d.portStat (32 + 8 * i + j)
  | .CLS_OVF_STAT =>
    let x := d.dray i
    (x.ovf.filter fun e => !isHost e.2).length * 2 ^ 16 + (x.ovf.filter fun e => isHost e.2).length
  | .TBM_STAT => d.tbmStat
  | .TBM_DMA_STAT => bitAt d.tbm.dma.isSome 31 + d.tbm.dmaRes * 2 ^ 28 + d.tbm.dmaDone
  | .TBM_CH_STAT => tgetD d.tbm.train i 0 * 2 ^ 30 + tgetD d.tbm.margin i 0 * 2 ^ 20
  | .TBM_CH_FAIL => tgetD d.tbm.fail i 0
  | .LOFT_STAT => (List.range 4).foldl (fun m b => m + bitAt (d.bankOn b) (20 + b)) d.freeCells
  | .LOFT_SHARED_SIZE => d.sharedSize
  | .LOFT_SHARED_USED => d.sharedUsed
  | .LOFT_RELAY_USED => d.relayCells i
  | .LOFT_PORT_USED => d.portCells i
  | .LOFT_QSTAT_U => (d.qUnits i).length
  | .LOFT_QSTAT_C => d.qCells i
  | .LOFT_QFLAG => tgetD d.loft.cause i 0 * 2 ^ 4
  | .GATE_PORT_STAT => (d.gateAt i d.now).1 * 2 ^ 16 + (d.gateAt i d.now).2
  | .GATE_QSHP_FILL => d.fillShown i
  | .TIM_STAT => (List.range 4).foldl (fun m n => m + tbCode (d.tb n).state * 4 ^ n) 0
  | .TIM_SNAP_BEAT_LO => loOf d.time.snapAt
  | .TIM_SNAP_BEAT_HI => hiOf d.time.snapAt
  | .TIM_TB_PERR => twos 32 ((d.tb i).perr / 65536)
  | .TIM_TB_SNAP_FRAC => tsFrac (tgetD d.time.snap i 0)
  | .TIM_TB_SNAP_NS => tsNs (tgetD d.time.snap i 0)
  | .TIM_TB_SNAP_SEC_LO => tsSecLo (tgetD d.time.snap i 0)
  | .TIM_TB_SNAP_SEC_HI => tsSecHi (tgetD d.time.snap i 0)
  | .TIM_PPSI_POS => (d.ppsIn i).offset * 2 ^ 16 + (d.ppsIn i).phi
  | .TIM_PPSI_BEAT_LO => loOf (d.ppsIn i).beat
  | .TIM_PPSI_BEAT_HI => hiOf (d.ppsIn i).beat
  | .TIM_PPSI_CAP_FRAC => tsFrac ((d.ppsIn i).caps.getD j 0)
  | .TIM_PPSI_CAP_NS => tsNs ((d.ppsIn i).caps.getD j 0)
  | .TIM_PPSI_CAP_SEC_LO => tsSecLo ((d.ppsIn i).caps.getD j 0)
  | .TIM_PPSI_CAP_SEC_HI => tsSecHi ((d.ppsIn i).caps.getD j 0)
  | .TIM_PPSO_STAT =>
    bitAt (d.flag .TIM_PPSO_CFG [i] 31 && d.squelched i) 1 + bitAt (d.ppsLevel i) 0
  | .TIM_PTP_PORT => bitAt (d.oneStep i) 29 + bitAt (d.flag .TIM_PTP_PORT [i] 30 && !d.oneStep i) 28
  | .PAIR_STAT => d.pairStat
  | .PAIR_SKEW => d.pair.lat % 2 ^ 12 * 2 ^ 16 + twos 12 d.pair.skew
  | .PAIR_SYNC_STAT =>
    if d.pair.state == PairState.syncing then d.pair.phase * 2 ^ 30 + d.pair.pass * 2 ^ 24 + d.pair.left % 2 ^ 24 else 0
  | .PAIR_GHOSTS => d.ghosts
  | .PAIR_DIFF_BEAT_LO => loOf d.pair.diffBeat
  | .PAIR_DIFF_BEAT_HI => hiOf d.pair.diffBeat
  | .RDG_STAT => d.rdgStat
  | .RDG_SKEW => d.ridge.latest * 2 ^ 16 + d.ridge.spread
  | .RDG_LANE_STAT => d.laneStat i
  | .PST_STAT => d.pstStat
  | .PST_FIRST => d.pstFirst
  | .PST_FIRST_BEAT_LO => match d.pst.firstEv with | some (_, b) => loOf b | none => 0
  | .PST_FIRST_BEAT_HI => match d.pst.firstEv with | some (_, b) => hiOf b | none => 0
  | .PST_RST_CAUSE => d.pstCause
  | .PST_PEND => d.pendWord i
  | .PST_SRC_STAT => d.srcStat i
  | .WHP_STAT => bitAt d.outLost 30 + d.whip.seq
  | .WHP_REC => (d.whip.words.getD i 0#32).toNat
  | .PMC_CYC_LO => loOf (d.pmcCyc i)
  | .PMC_CYC_HI => hiOf (d.pmcCyc i)
  | .PMC_SNAP_CYC_LO => loOf (tgetD d.pmc.snapCyc i 0)
  | .PMC_SNAP_CYC_HI => hiOf (tgetD d.pmc.snapCyc i 0)
  | .PMC_SNAP_LO => loOf (tgetD d.pmc.snapCnt (8 * i + j) 0)
  | .PMC_SNAP_HI => hiOf (tgetD d.pmc.snapCnt (8 * i + j) 0)
  | .PWR_THERM => bitAt d.power.throttle 31
  | .PWR_TEMP => d.pwrTemp
  | .PWR_DOM_CTL_TBM => bitAt (d.chEn i) 31
  | .PWR_DOM_STAT => bitAt (d.domain i).pendingOn 31 + domCode (d.domain i).state
  | .HST_PCIE_STAT =>
    bitAt d.host.up 31 + (if d.host.up then d.host.speed * 2 ^ 28 + d.host.width * 2 ^ 24 else 0) + bitAt d.host.bme 23 +
    bitAt d.host.msixEn 22 + bitAt d.host.funcMask 21
  | .HST_ACC_ERR => bitAt d.host.accMore 30 + bitAt d.host.accBar 29 + d.host.accCause * 2 ^ 26
  | .HST_ACC_ERR_ADDR => d.host.accOff
  | .HST_SMB_STAT => if d.clk.ticks == 0 then 0 else 0x58 + d.host.smbAddr
  | .MSIX_PEND => d.host.pend / 2 ^ (32 * i) % 2 ^ 32
  | .THP_STAT => d.thpStat i
  | .CO_STAGE => (d.co i).stage
  | .CO_STATE => d.coState i
  | .CO_TXPN_LO => loOf (pnOf (d.co i))
  | .CO_TXPN_HI => hiOf (pnOf (d.co i))
  | _ => 0

/-- The value a read of a register returns in the CCLK under way, before any clearing (R13, R632). Entry 0 of the coach
table and of the policer profiles reads zero (R202, R441). -/
def Dev.regValue (d : Dev) (r : Reg) (ix : List Nat) : Nat :=
  if entryZero (r.key ix) then 0 else (wordAt d.words (r.key ix) + d.shown r ix) % 2 ^ 32

end Sys2Proof.Machine
end

