-- ==== Sys2Proof/Machine/Tick.lean ====
section
/-! DEFINITION. The passing of CCLK within a beat (R20), what the performance counters count in every CCLK (R575, R576),
and the ends of the same-CCLK rules (R14, R15). -/

namespace Sys2Proof.Machine

/-- Counters with EN = 1, as (block, counter). -/
def Dev.pmcArmed (d : Dev) : List (Nat × Nat) :=
  d.words.filterMap fun (e : Nat × Word) =>
    let o := e.1 - 0x450000
    let r := o % 0x200
    if 0x450000 ≤ e.1 && o < 0x2800 && 0x20 ≤ r && r < 0xA0 && r % 16 == 0 && e.2.getLsbD 31 then some (o / 0x200, r / 16 - 2)
    else none

/-- The head unit of queue q meets every condition of R388 but its gate's (code 1), or but its shaper's (code 2), at CCLK
t (R576). -/
def Dev.headHeld (d : Dev) (code q t : Nat) : Bool :=
  match d.queue q with
  | .unit u :: _ =>
    u.due ≤ t && u.notBefore ≤ t && d.eligible u t &&
    (if code == 1 then !d.gateAdmits (q / 8) (q % 8) t u.held
     else d.gateAdmits (q / 8) (q % 8) t u.held && !d.shaperAdmits q t)
  | _ => false

/-- What a counter of the GATE block adds for the `n` CCLK from now on, but for the first `from_` of them: CCLK with a held head in level mode, heads that
become held in edge mode (R575; log entry 23). -/
def Dev.heldCount (d : Dev) (code filter : Nat) (level : Bool) (from_ n : Nat) : Nat :=
  let qs := (d.loft.queues.map (·.1)).filter fun q => filter == 127 || q / 8 == filter
  ((List.range (n - from_)).map fun i =>
    let t := d.now + from_ + i
    if level then b2n (qs.any fun q => d.headHeld code q t)
    else (qs.filter fun q => d.headHeld code q t && !d.headHeld code q (t - 1)).length).sum

/-- What counter k of block b adds for `n` CCLK in which nothing happens beside conditions that hold (R575, R576); a write of
the counter took the first of them (R578). -/
def Dev.pmcIdle (d : Dev) (b k n : Nat) : Nat :=
  let c := d.rd .PMC_CNT_CFG [b, k]
  let code := bits c 7 0
  let level := bit c 30
  let seen := tgetD d.pmc.inCclk (8 * b + k) 0
  if !d.pmcLive b k then 0
  else if code == 0 then n - min seen 1
  else if b == 11 && (code == 1 || code == 2) then d.heldCount code (bits c 27 21) level (min seen 1) n
  else if level && ((b == 15 && code == 3 && d.alertLow) || (b == 18 && code == 1 && d.power.throttle) ||
      (b == 19 && code == 4 && d.commandFull)) then n - min seen 1
  else 0

/-- Block starts that the job at the head of the queue has in the `n` CCLK after this one: every 256 CCLK from its first, in a
beat while the block ends by CCLK 1,024 (R257, R258). -/
def Dev.blocksIn (d : Dev) (n : Nat) : Nat :=
  match d.vault.jobs with
  | [] => 0
  | j :: _ =>
    let t := if d.clk.run then d.clk.cclk else d.clk.ticks
    let upTo := fun (t : Nat) => if t < j.from_ then 0 else min j.left ((t - j.from_) / 256 + 1)
    let last := if d.clk.run then min (t + n) 768 else t + n
    if j.started && !d.engineHeld then upTo last - upTo t else 0

/-- `n` CCLK pass at every counter, the key engine's block starts in them among the events (R575, R576). -/
def Dev.pmcPass (d : Dev) (n : Nat) : Dev :=
  let d := d.pmcSpread 2 1 (d.blocksIn n)
  d.pmcArmed.foldl (fun (d : Dev) (x : Nat × Nat) =>
    let m := d.pmcIdle x.1 x.2 n
    if m == 0 then d else d.pmcAdd x.1 x.2 m) d

/-- A running job has the block start of CCLK 0 of the beat that begins (R257, R576). -/
def Dev.firstBlock (d : Dev) : Dev :=
  match d.vault.jobs with
  | j :: _ => if j.started && j.from_ == 0 && j.left != 0 && !d.engineHeld then d.pmcEvent 2 1 else d
  | [] => d

/-- What was set and counted in the CCLK under way is over (R14, R15, R557, R575). -/
def Dev.newCclk (d : Dev) : Dev :=
  { d with set1c := [], addRc := [], pst := { d.pst with inCclk := [] }, pmc := { d.pmc with inCclk := [] } }

/-- Move the clock on to CCLK offset c of the beat under way; never back. -/
def Dev.tickTo (d : Dev) (c : Nat) : Dev :=
  let c := min c 1199
  if c ≤ d.clk.cclk then d else
  let n := c - d.clk.cclk
  let d := (d.pmcPass n).newCclk
  { d with clk := { d.clk with cclk := c, ticks := d.clk.ticks + n } }

/-- A host access takes its CCLK: the next command finds a later one (R632; log entry 2). In the beat's last CCLK a counter that was
written still adds nothing (R578). -/
def Dev.endAccess (d : Dev) : Dev :=
  if d.clk.cclk < 1199 then (d.tickTo (d.clk.cclk + 1)).newCclk
  else { d.newCclk with pmc := { d.newCclk.pmc with inCclk := d.pmc.inCclk } }

end Sys2Proof.Machine
end

