-- ==== Sys2Proof/Machine/Flags.lean ====
section
/-! DEFINITION. The interrupt conditions and messages (R635, R636), evaluated at the end of every command. -/

namespace Sys2Proof.Machine

/-- Vector v is masked, or messages are disabled (R630, R636). -/
def Dev.vecMasked (d : Dev) (v : Nat) : Bool :=
  d.flag .MSIX_CTRL [v] 0 || d.host.funcMask || !d.host.msixEn || !d.host.bme || d.host.d3hot

/-- Send a message of vector v, or set its pending bit (R636). -/
def Dev.sendVec (d : Dev) (v : Nat) : Dev :=
  if d.vecMasked v then { d with host := { d.host with pend := d.host.pend ||| 2 ^ v } }
  else (d.emit (.msix v)).pmcEvent 19 3

/-- A pending vector whose mask has ended sends if its condition still holds; otherwise its pending bit clears (R636). -/
def Dev.unmask (d : Dev) (v : Nat) : Dev :=
  if bit d.host.pend v && !d.vecMasked v then
    let d := { d with host := { d.host with pend := d.host.pend ^^^ 2 ^ v } }
    if d.vecHolds v then d.sendVec v else d
  else d

/-- The messages that fall due at the end of a command (R636): a condition became true, a write reached a status or
enable register of a condition that holds, or an event applied a set holding INT, once in a beat. -/
def Dev.messages (d : Dev) : Dev :=
  let c := d.condMask
  let ev := d.pst.v4req && d.pst.v4beat != some d.beat
  let due := fun (v : Nat) => (bit c v && (!bit d.host.cond v || bit d.host.touch v)) || (v == 4 && ev)
  let d := { d with pst := { d.pst with v4req := false, v4beat := if ev then some d.beat else d.pst.v4beat } }
  let d := (List.range 52).foldl (fun (d : Dev) v => if due v then d.sendVec v else d) d
  { d with host := { d.host with cond := c, touch := 0 } }

/-- The end of a command: the condition of F186 (R552, R572), messages, and vectors whose mask has ended. -/
def Dev.settle (d : Dev) : Dev :=
  let d := (d.setCond 186 d.outLost).messages
  if d.host.pend == 0 then d else (List.range 52).foldl (fun d v => d.unmask v) d

end Sys2Proof.Machine
end

