-- ==== Sys2Proof/Machine/Reset.lean ====
section
/-! DEFINITION. Resets: of one block (R562), of the PCI Express core (R630) and of the whole device (R563, R593, R594,
R648, R661). -/

namespace Sys2Proof.Machine

/-- PERST_N, a function-level reset and the block reset of F150: the core and configuration space, the MSI-X table and
pending bits, HST_APER_SEL and HST_INT_EN (R630). -/
def Dev.pcieReset (d : Dev) : Dev :=
  let gone := fun (k : Nat) => (0x478000 ≤ k && k < 0x478400) || k == 0x470020 || k == 0x470024 || k == 0x470008
  { d with words := d.words.filter fun (e : Nat × Word) => !gone e.1,
           host := { d.host with up := false, speed := 0, width := 0, bme := false, msixEn := false, funcMask := false,
                                 d3hot := false, pend := 0, bars := [], payload := 0 } }

/-- The SerDes of a lane group is reset: its PLL relocks and its ports lose their link until then, as the boundaries
sample it (R106, R562). -/
def Dev.serdesReset (d : Dev) (x : Nat) : Dev := d.retrain x

/-- The reset of the unit that a source names (R562). -/
def Dev.unitReset (d : Dev) (s : Nat) : Dev :=
  if 48 ≤ s && s ≤ 51 then d.serdesReset (13 + (s - 48))
  else if 52 ≤ s && s ≤ 55 then d.serdesReset (17 + (s - 52))
  else if 134 ≤ s && s ≤ 149 then (if (d.lane (s - 134)).state == LaneState.off then d else d.laneSearch (s - 134))
  else if s == 150 then d.pcieReset
  else d

/-- A block reset that source s asked for before this CCLK is made, at CCLK 0 of a beat; a chip reset takes its place (R562,
R563). -/
def Dev.blockReset (d : Dev) (s : Nat) : Dev :=
  if d.clk.cclk == 0 && d.pst.chipReq.isNone && d.pst.blockReq.any fun e => e.1 == s && e.2 < d.clk.ticks then
    { d with pst := { d.pst with blockReq := d.pst.blockReq.filter fun e => e.1 != s || d.clk.ticks ≤ e.2 } }.unitReset s
  else d

/-- The block resets that are due, once for each unit (R562). -/
def Dev.blockResets (d : Dev) : Dev := (d.pst.blockReq.map (·.1)).eraseDups.foldl (fun d s => d.blockReset s) d

/-- The flash a reset leaves: a CK slot or floor record that was being written fails its check (R220, R281), and what a host
operation was erasing or programming is left free (log entry 21). -/
def Dev.cutFlash (d : Dev) : Dev :=
  let d := if d.ckWriting then d.breakOff (ckSlotAddr d.ckTarget.1) 0x40000 else d
  let d := match d.floor.write with
    | some w => if w.done || w.failed then d else d.breakOff (floorAddr (olderRecord d.floor.recs)) 4096
    | none => d
  match d.boot.flJob with
  | some j => if j.op == 2 then d.scramble j.addr 65536 else if j.op == 3 then d.scramble j.addr j.len else d
  | none => d

/-- The device after a chip reset of a kind: everything is cleared but the cause, the OTP and the flash (R594); the test
port and the count of free values stand. -/
def Dev.chipReset (d : Dev) (kind src : Nat) : Dev :=
  let d := d.cutFlash
  { Dev.afterReset d.board kind src with jtag := d.jtag, fresh := d.fresh }

/-- A low on RESET_N of 1 us or longer (R593); SRC belongs to KIND 2 and stays as it was. -/
def Dev.resetPin (d : Dev) (lowNs : Nat) : Dev := if 1000 ≤ lowNs then d.chipReset 1 d.pst.rstSrc else d

/-- The CHIP reaction resets the device (R563). -/
def Dev.chipReaction (d : Dev) : Dev :=
  match d.pst.chipReq with
  | some s => d.chipReset 2 s
  | none => d

/-- The power-on hold ends (R593). -/
def Dev.powerOn (d : Dev) : Dev :=
  let d := d.cutFlash
  { Dev.afterReset d.board 0 0 with fresh := d.fresh }

/-- The power-on hold starts again: the state is lost and the device stays in reset (R661). -/
def Dev.powerHold (d : Dev) : Dev := { d.powerOn with hold := true }

/-- The device is held in reset, by PD00 or by a boundary-scan instruction (R593, R648). -/
def Dev.inReset (d : Dev) : Bool := d.hold || d.jtag.hold

end Sys2Proof.Machine
end

