-- ==== Sys2Proof/Machine/Operands.lean ====
section
/-! DEFINITION. The operand forms of the host's commands: which register or table word a BAR0 offset reaches (R17, R631,
R633, R640, R641), which HI word belongs to a LO word (R634), which vector a register's write touches (R636), and where
a written value is brought into range (R627, R377). -/

namespace Sys2Proof.Machine

/-- The dword a BAR0 offset lies in: BAR0 is 16 MiB, and a request is 4-byte aligned (R628, R631; log entry 24). -/
def dwordOf (off : Nat) : Nat := off % 2 ^ 24 / 4 * 4

/-- Key of the table word at an offset of aperture a, when the selected table has one there (R640, R641). -/
def Dev.apertureKey (d : Dev) (a o : Nat) : Option Nat :=
  let t := d.fld .HST_APER_SEL [a] 3 0
  match tabShape t with
  | some (n, w) => if o / (4 * w) < n then some (tabKey t (o / (4 * w)) (o % (4 * w) / 4)) else none
  | none => none

/-- The register or table word that a dword offset reaches, with its key; none where the offset is unoccupied (R17). -/
def Dev.resolve (d : Dev) (off : Nat) : Option (Nat × Reg × List Nat) :=
  let key := if off < 0x800000 then some off
             else if off < 0xC00000 then d.apertureKey 0 (off - 0x800000)
             else d.apertureKey 1 (off - 0xC00000)
  key.bind fun k => (regAt k).map fun (r : RegAt) => (k, r.1, r.2)

/-- The HI word read with a LO word, for the values that are read coherently (R634). -/
def hiWord (r : Reg) (ix : List Nat) : Option (Reg × List Nat) :=
  match r with
  | .GLB_INT_SUM_LO => some (.GLB_INT_SUM_HI, ix)
  | .VLT_SERIAL_LO => some (.VLT_SERIAL_HI, ix)
  | .VLT_KCV_LO => some (.VLT_KCV_HI, ix)
  | .BEAT_COUNT_LO => some (.BEAT_COUNT_HI, ix)
  | .BEAT_APPLY_LO => some (.BEAT_APPLY_HI, ix)
  | .BEAT_BATCH_BEAT_LO => some (.BEAT_BATCH_BEAT_HI, ix)
  | .BEAT_ALARM_LO => some (.BEAT_ALARM_HI, ix)
  | .BEAT_DET_VOID_LO => some (.BEAT_DET_VOID_HI, ix)
  | .DRY_CNT_LO => some (.DRY_CNT_HI, ix)
  | .TBM_DMA_HADDR_LO => some (.TBM_DMA_HADDR_HI, ix)
  | .GATE_PORT_BASE_LO => some (.GATE_PORT_BASE_HI, ix)
  | .TIM_SNAP_BEAT_LO => some (.TIM_SNAP_BEAT_HI, ix)
  | .TIM_TB_ADJ_SEC_LO => some (.TIM_TB_ADJ_SEC_HI, ix)
  | .TIM_TB_SNAP_SEC_LO => some (.TIM_TB_SNAP_SEC_HI, ix)
  | .TIM_PPSI_BEAT_LO => some (.TIM_PPSI_BEAT_HI, ix)
  | .TIM_PPSI_CAP_SEC_LO => some (.TIM_PPSI_CAP_SEC_HI, ix)
  | .PAIR_DIFF_BEAT_LO => some (.PAIR_DIFF_BEAT_HI, ix)
  | .PST_FIRST_BEAT_LO => some (.PST_FIRST_BEAT_HI, ix)
  | .WHP_BEAT_LO => some (.WHP_BEAT_HI, ix)
  | .PMC_CYC_LO => some (.PMC_CYC_HI, ix)
  | .PMC_SNAP_CYC_LO => some (.PMC_SNAP_CYC_HI, ix)
  | .PMC_CNT_LO => some (.PMC_CNT_HI, ix)
  | .PMC_SNAP_LO => some (.PMC_SNAP_HI, ix)
  | .CO_TXPN_LO => some (.CO_TXPN_HI, ix)
  | .CST_WIDE =>
    match ix with
    | [c, w] => if w % 2 == 0 then some (.CST_WIDE, [c, w + 1]) else none
    | _ => none
  | _ => none

/-- The vector whose status or enables a register holds (R635). -/
def vectorOf (r : Reg) (ix : List Nat) : Option Nat :=
  let i := ix.headD 0
  match r with
  | .HST_INT_STAT | .HST_INT_EN => some 0
  | .BEAT_INT_STAT | .BEAT_INT_EN => some 1
  | .BOOT_INT_STAT | .BOOT_INT_EN => some 2
  | .VLT_INT_STAT | .VLT_INT_EN => some 3
  | .PST_SRC_STAT => some 4
  | .PAIR_INT_STAT | .PAIR_INT_EN => some 5
  | .RDG_INT_STAT | .RDG_INT_EN => some 6
  | .WHP_INT_STAT | .WHP_INT_EN => some 7
  | .TIM_INT_STAT | .TIM_INT_EN => some 8
  | .PWR_INT_STAT | .PWR_INT_EN => some 9
  | .PMC_INT_STAT | .PMC_INT_EN => some 10
  | .TBM_INT_STAT | .TBM_INT_EN => some 11
  | .LOFT_INT_STAT | .LOFT_INT_EN => some 12
  | .GATE_INT_STAT | .GATE_INT_EN => some 13
  | .CLS_INT_STAT | .CLS_INT_EN => some 14
  | .DRY_INT_STAT | .DRY_INT_EN => some (16 + i)
  | .THP_EVT | .THP_EVT_EN => some (20 + i)
  | _ => none

end Sys2Proof.Machine
end

