-- ==== Sys2Proof/Machine/Host.lean ====
section
/-! DEFINITION. What the host and the other outside ports do: BAR0 reads and writes (R13-R17, R631-R642), the key windows
(R643), access errors (R644), the PCI Express function's state (R629, R630), the SMBus status view (R645, R646) and the
test access port (R647-R649, R370). -/

namespace Sys2Proof.Machine

/-! Access errors. -/

/-- An access error (R644): 1 UNOCC_RD, 2 UNOCC_WR, 3 PARTIAL, 4 RWS_DISCARD. The first fills the record, a later one
sets MORE. -/
def Dev.accErr (d : Dev) (bar2 : Bool) (cause off : Nat) : Dev :=
  let d := (d.count .HST_CNT [if cause ≤ 2 then 0 else cause - 2]).irq .HST_INT_STAT 0
  let d := if cause ≤ 2 then d.raise 152 else d
  if d.flag .HST_ACC_ERR [] 31 then { d with host := { d.host with accMore := true } }
  else { d.irq .HST_ACC_ERR 31 with host := { d.host with accBar := bar2, accCause := cause, accOff := off } }

/-! Reads. -/

/-- The value a read of a word returns, by its latch when one is set, and the latch of its HI word (R634). -/
def Dev.latchRead (d : Dev) (k : Nat) (r : Reg) (ix : List Nat) : Dev × Nat :=
  let v := (tget d.host.latch k).getD (d.regValue r ix)
  let l := tdel d.host.latch k
  let l := match hiWord r ix with
    | some (h, hx) => tset l (h.key hx) (d.regValue h hx)
    | none => l
  ({ d with host := { d.host with latch := l } }, v)

/-- Clear the RC fields of a word that a read has returned: the read gives the value before the events of this CCLK, and
they stand in the counter after the clear (R13, R15). -/
def Dev.clearRead (d : Dev) (k : Nat) (r : Reg) (v : Nat) : Dev × Nat :=
  let m := r.row.rc
  if m == 0 then (d, v) else
  let a := tgetD d.addRc k (0, 0)
  ({ d with words := setWord d.words k (mergeBits (wordAt d.words k) m (min a.1 m)), addRc := tdel d.addRc k }, v - a.2)

/-- A read of one dword (R17, R631, R632). -/
def Dev.readDword (d : Dev) (off : Nat) : Dev × Nat :=
  match d.resolve off with
  | none => (d.accErr false 1 off, 0)
  | some (k, r, ix) =>
    let x := d.latchRead k r ix
    x.1.clearRead k r x.2

/-- The bytes of a dword that byte enables name; the others are shown as zero (R631). -/
def byteMask (be : Nat) : Nat := (List.range 4).foldl (fun m i => m + if bit be i then 0xFF * 2 ^ (8 * i) else 0) 0

/-- A host read of a dword with the byte enables `be`, of values as they stand in the CCLK under way; with its BARs disabled the
function serves none (R630-R632). -/
def Dev.hostRead (d : Dev) (off be : Nat) : Dev :=
  if d.host.d3hot then d else
  let x := (d.packBefore.pmcEvent 19 1).readDword (dwordOf off)
  (x.1.emit (.rdata (dwordOf off) (BitVec.ofNat 32 (x.2 &&& byteMask be)))).endAccess

/-! Writes. -/

/-- The RWS fields of a written word: staged, and forwarded to the partner, or discarded (R43, R44, R491, R609, R637,
R639). -/
def Dev.writeRws (d : Dev) (k : Nat) (m v off : Nat) : Dev :=
  if m == 0 then d
  else if !d.clk.run || !d.leads then d.accErr false 4 off
  else
    let w := BitVec.ofNat 32 (v &&& m)
    let kept := d.hasRoom (.word k w)
    let d := d.stage (.word k w)
    if kept then d.forward (.write k w) else d

/-- The RW fields of a written word (R13). -/
def Dev.writeRw (d : Dev) (k : Nat) (r : Reg) (v : Nat) : Dev :=
  if r.row.rw == 0 then d
  else { d with words := setWord d.words k (mergeBits (wordAt d.words k) r.row.rw (clampWrite r v &&& r.row.rw)) }

/-- The W1C bits of a written word: a bit that the device set in this CCLK stays (R13, R14). -/
def Dev.writeW1c (d : Dev) (k : Nat) (r : Reg) (v : Nat) : Dev :=
  let m := v &&& r.row.w1c
  let m := m &&& (0xFFFFFFFF ^^^ tgetD d.set1c k 0)
  if m == 0 then d else { d with words := setWord d.words k (mergeBits (wordAt d.words k) m 0) }

/-- A written HST_ACC_ERR.VALID clears the record and MORE (R655). -/
def Dev.clearAcc (d : Dev) : Dev :=
  if d.flag .HST_ACC_ERR [] 31 then d
  else { d with host := { d.host with accMore := false, accBar := false, accCause := 0, accOff := 0 } }

/-- A write of BEAT_BATCH_CTL (R45, R50): DISCARD goes before SEAL. An accepted batch is forwarded with its keys (R274,
R491). -/
def Dev.batchCtl (d : Dev) (v : Nat) : Dev :=
  if bit v 2 then (d.discardOpen.forward .discard).forgetDeliveries
  else if bit v 0 then
    let a := d.sealBeat (bit v 1)
    match d.sealResult a with
    | .accepted =>
      ((d.acceptBatch a).forward (.seal a)).sealDeliveries d.batch.open_ a
    | r =>
      let e := d.refuseSeal r
      if e.batch.open_.isEmpty && !d.batch.open_.isEmpty then (e.forward .discard).forgetDeliveries else e
  else d

/-- A snapshot of the time bases is asked for in this beat (R466). -/
def Dev.snapRequest (d : Dev) : Dev := { d with time := { d.time with snapReq := true } }

/-- What a write does beside storing fields: the WO strobes, the lane mode, the PEND clear and the error record. `was` is
the device before the write. -/
def Dev.writeActs (was d : Dev) (r : Reg) (ix : List Nat) (v : Nat) : Dev :=
  let i := ix.headD 0
  match r with
  | .BOOT_FL_CTL => if bit v 31 then d.flGo (bits v 30 28) (bits v 8 0) else d
  | .VLT_PK_CTL => if bit v 31 then d.pkGo (bits v 30 28) (bits v 27 24) else d
  | .VLT_LC_CTL => if bit v 31 then d.lcGo else d
  | .BEAT_BATCH_CTL => d.batchCtl v
  | .TBM_DMA_CTL => if bit v 0 then d.dmaGo else d
  | .TBM_INJ => if bit v 31 then d.armFlip (bits v 30 28) (bits v 6 0) else d
  | .TIM_SNAP_CTL => if bit v 0 then d.snapRequest else d
  | .RDG_LANE_CTL =>
    let d := d.laneMode i (was.prbsMode i)
    if bit v 31 then d.prbsInject i else d
  | .PST_ALERT => if bit v 31 then d.alertAck else d
  | .PST_INJ => if bit v 31 then d.inject (bits v 7 0) (bits v 30 29) else d
  | .PST_SRC_STAT => if bit v 31 && i < 190 then d.clearPend i else d
  | .WHP_CTL => if bit v 0 then d.whipFire else d
  | .PMC_CNT_LO | .PMC_CNT_HI =>
    let k := ix.getD 1 0
    d.pmcFreeze (r == .PMC_CNT_HI) (was.pmcBegan i k) i k
  | .HST_ACC_ERR => if bit v 31 then d.clearAcc else d
  | _ => d

/-- The fields that act on a host write at once (R13, R638): PEND is cleared by its own rule (R559). -/
def Dev.writeNow (d : Dev) (k : Nat) (r : Reg) (ix : List Nat) (v : Nat) : Dev :=
  let w1c := if r == .PST_SRC_STAT then v % 2 ^ 31 else v
  Dev.writeActs d ((d.writeRw k r v).writeW1c k r w1c) r ix v

/-- A write reached a status or enable register of its vector's sources (R636). -/
def Dev.touched (d : Dev) (r : Reg) (ix : List Nat) : Dev :=
  match vectorOf r ix with
  | some v => { d with host := { d.host with touch := d.host.touch ||| 2 ^ v } }
  | none => d

/-- A write of one dword with the byte enables `be` (R17, R631, R638). Of the two causes that a partial write to an unoccupied
offset has under R644, PARTIAL is recorded (log entry 61). -/
def Dev.writeDword (d : Dev) (off v be : Nat) : Dev :=
  if be != 15 then d.accErr false 3 off else
  match d.resolve off with
  | none => d.accErr false 2 off
  | some (k, r, ix) => ((d.writeNow k r ix v).writeRws k r.row.rws v off).touched r ix

/-- A write that reaches the performance counters finds every event of the CCLK before it counted (R578). -/
def Dev.writeFirst (d : Dev) (off : Nat) : Dev := if 0x450000 ≤ dwordOf off && dwordOf off < 0x452800 then d.packBefore else d

/-- A host write; with its BARs disabled the function serves none (R630). -/
def Dev.hostWrite (d : Dev) (off : Nat) (v : Word) (be : Nat) : Dev :=
  if d.host.d3hot then d else (((d.writeFirst off).pmcEvent 19 2).writeDword (dwordOf off) v.toNat be).endAccess

/-- A host write of a register with all byte enables set. -/
def Dev.regWrite (d : Dev) (r : Reg) (ix : List Nat) (v : Nat) : Dev := d.hostWrite (r.key ix) (BitVec.ofNat 32 v) 15

/-- A read of BAR2 returns zero and is no error: every word of it is WOK (R13, R269, R643). -/
def Dev.windowRead (d : Dev) (off : Nat) : Dev :=
  if d.host.d3hot then d else (d.emit (.rdata (off % 2 ^ 16 / 4 * 4) 0)).endAccess

/-- A write to BAR2 (R643). -/
def Dev.windowWrite (d : Dev) (off : Nat) (v : Word) (be : Nat) : Dev :=
  if d.host.d3hot then d else
  let o := off % 2 ^ 16 / 4 * 4
  (if be != 15 then d.accErr true 3 o else d.kwWrite o v).endAccess

/-! The PCI Express function. -/

/-- The link and the function's enables as the core reports them (R629, R653). Training needs stage CLOCK. -/
def Dev.linkChange (d : Dev) (up : Bool) (speed width : Nat) (bme msixEn funcMask : Bool) : Dev :=
  if !d.boot.clockEnd then d else
  { d with host := { d.host with up := up, speed := speed % 8, width := width % 16, bme := bme, msixEn := msixEn,
                                 funcMask := funcMask } }

/-- The function enters D3hot (R630). -/
def Dev.enterD3 (d : Dev) : Dev := { d with host := { d.host with d3hot := true } }

/-- Identifiers of the capabilities: PCI Express, power management, MSI-X; advanced error reporting, device serial number (R628;
log entry 95). -/
def cfgCaps : List Nat := [0x10, 0x01, 0x11, 0x0001, 0x0003]

/-- An item of the configuration space as a read gives it (R628; log entry 95). -/
def Dev.cfgValue (d : Dev) : CfgItem → Nat
  | .ids => 0x32001F4E
  | .classRev => 0x108000A2
  | .subsystem => 0x00001F4E
  | .bar i => if 4 ≤ i then 0 else (tgetD d.host.bars i 0#32).toNat + if i % 2 == 0 then 4 else 0
  | .rom => 0
  | .cap i => cfgCaps.getD i 0
  | .serialLo => loOf d.serialShown
  | .serialHi => hiOf d.serialShown
  | .payload => d.host.payload
  | .power => if d.host.d3hot then 3 else 0

/-- A configuration read; until stage CLOCK has ended its answer is configuration request retry status (R628, R629). -/
def Dev.cfgRead (d : Dev) (i : CfgItem) : Dev :=
  if d.boot.clockEnd then d.emit (.cfg (BitVec.ofNat 32 (d.cfgValue i))) else d.emit .cfgRetry

/-- Address bits of base address register i: BAR0 of 16 MiB and BAR2 of 64 KiB, each with a high word (R628). -/
def barMask (i : Nat) : Nat := if i == 0 then 0xFF000000 else if i == 2 then 0xFFFF0000 else if i < 4 then 0xFFFFFFFF else 0

/-- A configuration write: a base address, the maximum payload size, or the power state (R628-R630). -/
def Dev.cfgWrite (d : Dev) (i : CfgItem) (v : Nat) : Dev :=
  if !d.boot.clockEnd then d.emit .cfgRetry else
  match i with
  | .bar i => { d with host := { d.host with bars := tput d.host.bars 0#32 i (BitVec.ofNat 32 (v &&& barMask i)) } }
  | .payload => if v ≤ 1 then { d with host := { d.host with payload := v } } else d
  | .power => if v % 4 == 3 then d.enterD3 else if v % 4 == 0 then { d with host := { d.host with d3hot := false } } else d
  | _ => d

/-- The dword after an address. -/
def nextAddr : HostAddr → HostAddr
  | .bar0 off => .bar0 (off + 4)
  | .bar2 off => .bar2 (off + 4)
  | .cfg i => .cfg i

/-- A read request, one dword at a time in ascending order (R631). -/
def Dev.hostReads (a : HostAddr) : List Nat → Dev → Dev
  | [], d => d
  | be :: r, d => Dev.hostReads (nextAddr a) r (match a with
    | .bar0 off => d.hostRead off be
    | .bar2 off => d.windowRead off
    | .cfg i => d.cfgRead i)

/-- A write request, one dword at a time in ascending order (R631). -/
def Dev.hostWrites (a : HostAddr) : List (Word × Nat) → Dev → Dev
  | [], d => d
  | w :: r, d => Dev.hostWrites (nextAddr a) r (match a with
    | .bar0 off => d.hostWrite off w.1 w.2
    | .bar2 off => d.windowWrite off w.1 w.2
    | .cfg i => d.cfgWrite i w.1.toNat)

/-- Errors that the PCI Express core logs: F150 uncorrectable, F151 correctable (R654, R656). -/
def Dev.pcieError (d : Dev) (s n : Nat) : Dev :=
  if n == 0 then d
  else if s == 150 then d.irq .HST_INT_STAT 2
  else if s == 151 then (d.irq .HST_INT_STAT 1).count .HST_CNT [3] n
  else d

/-! SMBus. -/

/-- A Block Read with command code `code`: the byte count, then the item of n bytes, most significant byte first, and the PEC over the
whole transaction from its address byte on; the target answers once stage CLOCK has ended (R645, R646; log entry 96). -/
def Dev.smbItem (d : Dev) (code n v : Nat) : Dev :=
  if !d.boot.clockEnd then d else
  let a := 2 * (0x58 + d.host.smbAddr)
  let b := BitVec.ofNat 8 n :: bytesOfNat n v
  d.emit (.smb b (BitVec.ofNat 8 (crc8 ([BitVec.ofNat 8 a, BitVec.ofNat 8 code, BitVec.ofNat 8 (a + 1)] ++ b))))

/-- A Block Read of a 4-byte register. -/
def Dev.smbReg (d : Dev) (code : Nat) (r : Reg) : Dev := d.smbItem code 4 (d.regValue r [])

/-- Any other transaction: a Block Read with another command code gives a byte count of 0, every other transaction is acknowledged
and discarded (R646). -/
def Dev.smbOther (d : Dev) : Option Nat → Dev
  | some code => d.smbItem code 0 0
  | none => d

/-! The test access port. -/

/-- Instructions that hold the device in chip reset while they are loaded (R648). -/
def holdsReset (op : Nat) : Bool := 3 ≤ op && op ≤ 7

/-- The instruction that an opcode selects: every opcode of no instruction selects BYPASS (R647). -/
def jtagIr (op : Nat) : Nat := if within op 1 7 || op == 0x20 || op == 0x21 then op else 0xFF

/-- Load an instruction: the boundary-scan instructions hold the device in chip reset, any other releases it, recorded as
KIND 1 (R648). -/
def Dev.loadIr (d : Dev) (op : Nat) : Dev :=
  let op := jtagIr op
  let d := if holdsReset op || d.jtag.hold then d.chipReset 1 d.pst.rstSrc else d
  { d with jtag := { d.jtag with ir := op, hold := holdsReset op } }

/-- A scan of the bypass bit (R647). -/
def Dev.scanBypass (d : Dev) : Dev := (d.loadIr 0xFF).emit (.tdo 0)

/-- A boundary scan of the pins as they stand (R647). -/
def Dev.scanBoundary (d : Dev) : Dev := { d.emit (.tdo (Config.boundarySample d.fresh)) with fresh := d.fresh + 1 }

/-- EXTEST, EXTEST_PULSE or EXTEST_TRAIN: the boundary register is selected and drives the pins (R647, R648). -/
def Dev.scanExtest (d : Dev) (op : Nat) : Dev := (d.loadIr op).scanBoundary

/-- HIGHZ or CLAMP: the bypass register is selected (R647, R648). -/
def Dev.scanHeld (d : Dev) (op : Nat) : Dev := (d.loadIr op).emit (.tdo 0)

/-- What drives the pins of the boundary register: the loaded instruction's cells, nothing, or the device (R647, R648). -/
def Dev.drive (d : Dev) : Drive :=
  if d.jtag.ir == 6 then .floating else if holdsReset d.jtag.ir then .cells d.jtag.preload else .own

/-- A scan of the identification register (R647). -/
def Dev.scanId (d : Dev) : Dev := (d.loadIr 1).emit (.tdo 0x23200ABF)

/-- A boundary scan that samples the pins and loads the preload cells (R647). -/
def Dev.scanSample (d : Dev) (preload : List Bool) : Dev :=
  let d := (d.loadIr 2).scanBoundary
  { d with jtag := { d.jtag with preload := preload } }

/-- A debug write of RWS fields takes effect in this CCLK: the time bases it changes go on from their present value
(R649). -/
def Dev.debugRws (d : Dev) (k m v : Nat) : Dev :=
  if m == 0 then d else
  let d := forEach 4 (forEach 4 d (Dev.ppsRoll d.now d.now)) fun d n => d.setTb n { d.tb n with val := tbValue (d.tb n) d.now, asOf := d.now }
  let d := d.commitEntries d.now [.word k (BitVec.ofNat 32 (v &&& m))]
  let d := forEach 4 d fun d n =>
    let x := d.tb n
    if !d.clk.run then d.setTb n { x with setTo := none, acc := 0 } else
    let val := (((x.setTo.getD x.val : Nat) + x.acc) % (tbWrap : Int)).toNat
    let chg := (val : Int) - x.val
    d.setTb n { x with val := val, en := d.flag .TIM_TB_CFG [n] 31, setTo := none, acc := 0,
                       adjs := if chg == 0 then x.adjs else x.adjs ++ [(d.now, chg)] }
  (d.voidDet 4).raise 6

/-- A debug write (R649). -/
def Dev.debugWrite (d : Dev) (off v : Nat) : Dev :=
  match d.resolve off with
  | none => d.accErr false 2 off
  | some (k, r, ix) => ((d.writeNow k r ix v).debugRws k r.row.rws v).touched r ix

/-- A scan of DBG_REG (R649): in OWNER it reads zero and is counted as denied. -/
def Dev.scanReg (d : Dev) (off : Nat) (write : Bool) (data : Word) : Dev :=
  let d := (d.loadIr 0x20).packBefore
  if !d.debugOk then ((d.countFld .GLB_DBG [] 15 0).emit (.tdo 0)).endAccess
  else if write then ((d.debugWrite (dwordOf off) data.toNat).emit (.tdo 0)).endAccess
  else
    let x := d.readDword (dwordOf off)
    (x.1.emit (.tdo (BitVec.ofNat 64 x.2))).endAccess

/-- Region of a line of channel c: 0 exact-match, 1 data, 2 calibration; none for an unused line (R349). -/
def Dev.lineRegion (d : Dev) (c a : Nat) : Option Nat :=
  if a < dataBase then some 0
  else if a < dataBase + d.dataLines c then some 1
  else if d.chLines c ≤ a + 64 && a < d.chLines c then some 2
  else none

/-- A debug read of a line (R370); what it returns of an uncorrectable one is free (log entry 6). -/
def Dev.debugReadLine (d : Dev) (c a region : Nat) : Dev :=
  if region == 2 then d.emit (.tdoLine ((tget d.tbm.raw (lineKey c a)).getD (Config.rawLine (lineKey c a)))) else
  match d.readLine c a with
  | (d, some v) => d.emit (.tdoLine (v.zeroExtend 288))
  | (d, none) => d.draw.1.emit (.tdoLine (d.draw.2.truncate 288))

/-- A debug write of a line: raw in the calibration region, plaintext elsewhere, where it ends the determinism record
(R55, R370). -/
def Dev.debugWriteLine (d : Dev) (c a region : Nat) (v : BitVec 288) : Dev :=
  if region == 2 then d.setRaw c a v
  else ((d.writeLine c a (v.truncate 240)).voidDet 4).raise 6

/-- A scan of DBG_TBL (R352, R370): an operation that the users before it leave, or the arming of an injected error. -/
def Dev.scanTbl (d : Dev) (c a : Nat) (write : Bool) (inject : Option Nat) (v : BitVec 288) : Dev :=
  let d := d.loadIr 0x21
  if !d.debugOk || !d.chEn c then d.irq .TBM_INT_STAT 0 else
  match inject with
  | some b => d.armFlip c b
  | none =>
    match d.lineRegion c a with
    | none => d.irq .TBM_INT_STAT 0
    | some g =>
      if d.lowLeft c == 0 then d else
      let d := d.takeOp c
      if write then d.debugWriteLine c a g v else d.debugReadLine c a g

end Sys2Proof.Machine
end

