-- ==== Sys2Proof/Machine/Boundary.lean ====
section
/-! DEFINITION. The beat boundary (R20, R40): the work of the beat that ends, the ordered changes, and what the new beat
opens with. -/

namespace Sys2Proof.Machine

/-! The end of a beat. -/

/-- What the beat that ends still does by its last CCLK: superframes handed over (R174), Whip triggers (R567), the scrub and the DMA reads with the
operations left (R352), a slot of a running re-mask sweep (R254), a beat of passing generator tests (R256) and the Ridge frames (R528). -/
def Dev.endBeat (d : Dev) : Dev :=
  let d := d.tickTo 1199
  let d := if d.clk.run then (forEach 32 d fun d n => d.packTo n d.now).whipTime.whipBeat.scrubBeat.dmaServe 0 else d
  d.sweepStep.trngBeat.framesSent

/-- BEAT_PHASE.OFFSET returns to 0; a beat that ends with ALIGN is longer (R20, R512). -/
def Dev.wrapCclk (d : Dev) : Dev :=
  let n := 1200 - d.clk.cclk + d.alignShift
  let d := (d.pmcPass n).newCclk
  { d with clk := { d.clk with cclk := 0, ticks := d.clk.ticks + n } }

/-- The bit of PMC_INT_STAT of a block that wrapped: at the boundary after the wrap or at the one after that, whichever
is free (R577; log entry 25). A block held over is listed as 20 more than its number. -/
def Dev.pmcWraps (d : Dev) : Dev :=
  if d.pmc.wrapped.isEmpty then d else
  let x := d.draw
  let now := fun (b : Nat) => 20 ≤ b || x.2.getLsbD b
  let d := d.pmc.wrapped.foldl (fun (d : Dev) b => if now b then d.irq .PMC_INT_STAT (b % 20) else d) x.1
  { d with pmc := { d.pmc with wrapped := ((d.pmc.wrapped.filter fun b => !now b).map (· + 20)).eraseDups } }

/-! Counts that a beat starts at zero. -/

/-- Per-beat totals start again, from what relay starts have charged ahead (R26, R96, R113, R189, R211, R315), and arrivals that can no longer be processed leave. -/
def Dev.newBeat (d : Dev) (n : Nat) : Dev :=
  let ahead := fun (t : Tab Nat) => (t.filter fun e => 16 ≤ e.1).map fun e => (e.1 - 16, e.2)
  { d with still := d.halt,
           tbm := { d.tbm with used := [] },
           vault := { d.vault with drvBeat := false, jobs := d.jobsLater },
           ports := { d.ports with
             units := ahead d.ports.units, bytes := ahead d.ports.bytes, admits := [],
             dyn := d.ports.dyn.map fun (e : Nat × PortDyn) => (e.1, { e.2 with count := 0 }),
             arrivals := d.ports.arrivals.filter fun a => n ≤ a.beat + 3 || a.held } }

/-- The transmit phase measured at this boundary serves the departures two beats on (R448). -/
def Dev.phaseStep (phase : Tab Nat) (d : Dev) (p : Nat) : Dev :=
  let x := d.port p
  d.setPort p { x with phUse := x.phPrev, phPrev := x.phNow, phNow := tgetD phase p 0 % 4 }

/-- The sampled LINK_UP takes effect; what the port presents now is the next sample (R106, R488). -/
def Dev.linkStep (d : Dev) (p : Nat) : Dev :=
  let x := d.port p
  let d := d.setPort p { x with linkUp := x.prevUp, prevUp := d.linkCond p }
  if x.linkUp == x.prevUp then d else d.irq .DRY_INT_STAT 1 [drayOf p]

/-! ALIGN. -/

/-- The beat that starts: one more, or the active's in phase ALIGN (R21, R512). -/
def Dev.nextCount (d : Dev) : Nat :=
  if d.aligning then d.alignBeat.getD (d.clk.count + 1) else d.clk.count + 1

/-- A time that moves with the count. -/
def shifted (t : Nat) (by_ : Int) : Nat := (t + by_).toNat

/-- ALIGN changes the count: times still to come keep their distance, and units and Whips of the old count are not taken
up again (R512). -/
def Dev.realign (d : Dev) (by_ : Int) : Dev :=
  if by_ == 0 then d else
  { d with
    clk := { d.clk with lats := [] },
    ports := { d.ports with
      arrivals := [], learn := [],
      verdicts := d.ports.verdicts.map fun v => { v with at_ := shifted v.at_ by_ },
      sfs := d.ports.sfs.map fun v => { v with at_ := shifted v.at_ by_ },
      dyn := d.ports.dyn.map fun (e : Nat × PortDyn) => (e.1, { e.2 with freeAt := shifted e.2.freeAt by_ }),
      thatch := d.ports.thatch.map fun (e : Nat × ThatchDyn) =>
        let m := by_ * (5 * d.rate (32 + e.1) : Nat)
        (e.1, { e.2 with txNext := shifted e.2.txNext m, txSf := e.2.txSf.map fun k => { k with at_ := shifted k.at_ m } }) },
    loft := { d.loft with
      tx := d.loft.tx.map fun (e : Nat × TxUnit) => (e.1, { e.2 with start := shifted e.2.start by_ }),
      hold := d.loft.hold.map fun (h : Nat × Nat × Nat) => (shifted h.1 by_, h.2),
      fill := d.loft.fill.map fun (e : Nat × (Int × Nat)) => (e.1, (e.2.1, shifted e.2.2 by_)),
      lastPush := [], lastStart := [], relayNext := [] },
    coach := { d.coach with dyn := d.coach.dyn.map fun (e : Nat × CoachDyn) => (e.1, { e.2 with tLast := shifted e.2.tLast by_ }) },
    time := { d.time with
      pin := d.time.pin.map fun (e : Nat × PpsIn) => (e.1, { e.2 with kept := [] }),
      tb := d.time.tb.map fun (e : Nat × TimeBase) => (e.1, { e.2 with adjs := [] }) },
    whip := { d.whip with due := [] } }

/-! The ordered changes. -/

/-- What comes before step 1 of R40: PPS edges act (R488), the time bases gather their changes, and the pair's work
decides the state of the beat. `t` is the CCLK that would follow without ALIGN. -/
def Dev.beforeSteps (d : Dev) (n t : Nat) (i : BoundaryIn) : Dev :=
  let d := forEach 64 d (Dev.phaseStep i.phase)
  let lost := d.recordDue n && (d.recOf (n - 2)).isNone
  let d := d.takeRecord n
  let d := forEach 4 d fun d k => d.ppsActs n k
  let d := forEach 4 (forEach 4 d (Dev.ppsRoll t (n * 1200))) (Dev.tbStart t (n * 1200))
  let d := forEach 4 d fun d k => d.tbMoves n k
  let d := d.pairBoundary n i lost
  forEach 64 d Dev.linkStep

/-- Steps 1 to 4 of R40 at the boundary that starts beat n; `old` is the device as beat n - 1 left it, its last CCLK
counted (R570). -/
def Dev.steps (d old : Dev) (n : Nat) : Dev :=
  let d := d.whipLatch old n
  let d := d.clsBoundary n
  let d := (((d.floorEffect n).switchAll n).loadDerived n).floorCheck n
  (d.commitAll n).joinQueue

/-- What follows step 4: time bases and their snapshot, tags of the tables, domains, temperature, block resets and the
work of the new beat. -/
def Dev.afterSteps (d old : Dev) (n : Nat) (i : BoundaryIn) : Dev :=
  let d := forEach 4 d fun d k => d.tbFinish (n * 1200) k
  let d := if d.time.snapReq then d.tbSnapshot n else d
  let d := (d.clsFinish old).whipOutLost.domBoundary n i.badDomains
  let d := ((d.readTemp i.temp).blockResets).ridgeTrain
  let d := forEach 32 d fun d k => (d.sfStream n k).defectStep n k
  let d := d.calDue n
  let d := forEach 8 d fun d c => d.calAbandon c
  let d := forEach 4 d fun d k => d.expireProbe n k
  let d := d.pst.src.foldl (fun (d : Dev) (e : Nat × SrcDyn) => d.closeWindow n e.1) d
  let d := d.maskRedraw n
  let d := if sweepDue n then d.addJob .knownAnswer else d
  let d := d.flNext.pmcWraps.pmcBases
  d.pairSend old n

/-- BEAT_COUNT reaches the alarm beat while EN is 1 (R71). -/
def Dev.alarm (d : Dev) (n : Nat) : Dev :=
  if d.flag .BEAT_ALARM_CTL [] 0 && n == d.rd .BEAT_ALARM_LO + d.rd .BEAT_ALARM_HI * 2 ^ 32 then d.irq .BEAT_INT_STAT 0
  else d

/-- ARB_HB changes its level (R505). -/
def Dev.heartbeat (d : Dev) : Dev := { d with pair := { d.pair with hb := !d.pair.hb } }

/-- CCLK 0 of beat n of a running device is under way (R20, R21). -/
def Dev.beginBeat (d : Dev) (n : Nat) : Dev :=
  let d := d.newCclk.noteLat n
  { d with clk := { d.clk with count := n, cclk := 0, run := true } }.firstBlock

/-- The boundary of a running device (R40). -/
def Dev.boundaryRun (d : Dev) (i : BoundaryIn) : Dev :=
  let n := d.nextCount
  let t := (d.clk.count + 1) * 1200 + d.alignShift
  let old := d.endBeat
  let d := old.wrapCclk
  let d := { d.newRecord with clk := { d.clk with count := n } }
  let d := ((d.realign (n * 1200 - t)).newBeat n).whipOutEnd
  let d := (d.beforeSteps n t i).steps old.wrapCclk n
  (((d.afterSteps old n i).alarm n).heartbeat).beginBeat n

/-- A boundary before beat 0: BEAT_COUNT stays as it is (R21), links and the arbiter's pins are sampled (R106, R505) and the
temperature is read (R618). -/
def Dev.boundaryWait (d : Dev) (i : BoundaryIn) : Dev :=
  let d := d.endBeat.wrapCclk
  let d := ((forEach 64 (d.sampleArb 0 i) Dev.linkStep).domRamps i.badDomains).readTemp i.temp
  ((d.blockResets.ridgeTrain.pmcWraps).loadFrames .idle).newCclk

/-- A beat boundary: a chip reset that is under way comes first (R563); pins stand as presented. -/
def Dev.boundary (d : Dev) (i : BoundaryIn) : Dev :=
  let d := { d with board := { d.board with pins := i } }
  if d.pst.chipReq.isSome then d.chipReaction
  else if d.clk.run then d.boundaryRun i
  else d.boundaryWait i

end Sys2Proof.Machine
end

