-- ==== Sys2Proof/Machine/Command.lean ====
section
/-! DEFINITION. How a command runs: what it does to the device, its outputs and interrupt messages, and the
devices that take no command. -/

namespace Sys2Proof.Machine

/-- What a command answers. -/
abbrev Answer := Host.Outcome State Fault Refusal

/-- The device after a command: outputs of the command alone, then interrupts and messages (R636). A device that is held
in reset takes no command (R593, R648). -/
def Dev.runCmd (d : Dev) (f : Dev → Dev) : Dev :=
  if d.inReset then { d with out := [] } else (f { d with out := [] }).settle

/-- A command of the running or starting device. -/
def onDev (s : State) (f : Dev → Dev) : Answer := .next { s with dev := s.dev.runCmd f }

/-- A command that happens at CCLK offset `time` of the beat under way (R412; log entry 2). -/
def onDevAt (s : State) (time : Nat) (f : Dev → Dev) : Answer := onDev s fun d => f (d.tickTo time)

/-- The device after a command of the supply, of RESET_N or of the test port, which a boundary-scan hold does not stop;
without its supply the device takes none (R593, R648, R661). -/
def Dev.runPort (d : Dev) (f : Dev → Dev) : Dev :=
  if d.hold then { d with out := [] } else (f { d with out := [] }).settle

/-- A command of RESET_N or of the test port. -/
def onPort (s : State) (f : Dev → Dev) : Answer := .next { s with dev := s.dev.runPort f }

/-- The engine's next block start in the beat under way, when there is one (R257). -/
def Dev.nextBlock (d : Dev) : Dev := match d.blockStart with | some c => d.tickTo c | none => d

/-- The CCLK in which the job at the head of the queue ends, when that is in the beat under way. -/
def Dev.headEnds (d : Dev) : Dev :=
  match d.vault.jobs.head?.bind d.jobEnds with
  | some c => d.tickTo c
  | none => d

/-- A command that takes effect only where an index names something the device has. -/
def Dev.when (d : Dev) (b : Bool) (f : Dev → Dev) : Dev := if b then f d else d

end Sys2Proof.Machine
end

