-- ==== Sys2Proof/Machine/StartCmds.lean ====
section
/-! DEFINITION. The commands of power, reset and the start sequence (R22, R241, R365, R593, R606, R610, R661). -/

namespace Sys2Proof.Machine

/-- POWER_ON_RESET: VDD_CORE rises above 0.82 V; the power-on hold ends and the start sequence begins, KIND 0 (R593, R661). -/
def execPowerOnReset (s : State) : Answer := .next { s with dev := s.dev.powerOn }

/-- POWER_ON_HOLD: VDD_CORE falls below 0.80 V; the state is lost and the device stays in reset (R661). -/
def execPowerOnHold (s : State) : Answer := .next { s with dev := s.dev.powerHold }

/-- CHIP_RESET: RESET_N was low for `lowNs` ns (R593). -/
def execChipReset (lowNs : Nat) (s : State) : Answer := onPort s fun d => d.resetPin lowNs

/-- The CCLK PLL loses lock: PLL_LOCK clears, the guarantee is void, and F000 is reported (R22, R57). -/
def Dev.pllLoss (d : Dev) : Dev :=
  d.when d.clk.pllLock fun d => ({ d with clk := { d.clk with pllLock := false } }.voidDet 0).raise 0

/-- PLL_LOCK_LOSS (R22). -/
def execPllLockLoss (s : State) : Answer := onDev s Dev.pllLoss

/-- PUF_ATTEMPT: a regeneration attempt found `errBits` bit errors and gave P = `p` (R241, R242). -/
def execPufAttempt (errBits : Nat) (p : BitVec 256) (s : State) : Answer := onDev s fun d => d.pufAttempt errBits p

/-- BOOT_STAGE_COMPLETE: a stage ends well or not; `info` is what SFDP gave at stage FLASH (R606, R595). -/
def execBootStageComplete (stage : Nat) (ok : Bool) (info : Word) (s : State) : Answer :=
  onDev s fun d => d.stageEnd stage ok info

/-- TBM_CHANNEL_TRAINING: channel c trains, or fails at a step (R365-R367). -/
def execTbmChannelTraining (c failStep margin : Nat) (s : State) : Answer :=
  onDev s fun d => d.trainChannel c failStep margin

/-- What the boundary of beat 0 does beside the commit (R71, R106, R159, R257, R368, R505). -/
def Dev.openBeat0 (d : Dev) : Dev :=
  let d := { d with vault := { d.vault with jobs := d.jobsAtBeat0 } }
  let d := forEach 64 (d.sampleArb 0 d.board.pins) Dev.linkStep
  let d := forEach 32 d fun d n => d.sfStream 0 n
  (((((d.ridgeTrain).calDue 0).noteBeat 0).alarm 0).heartbeat.loadFrames .idle).beginBeat 0

/-- The first boundary after VERIFY and KEYS commits everything loaded and starts beat 0, `us` microseconds after reset
release (R21, R610). -/
def Dev.startBeat0 (d : Dev) (us : Nat) : Dev :=
  d.when (d.boot.stage == 7 && !d.halt && d.preRun) fun d => (((d.endBeat.wrapCclk).beat0 us).readTemp d.board.pins.temp).openBeat0

/-- BEAT0_COMMIT (R610). -/
def execBeat0Commit (us : Nat) (s : State) : Answer := onDev s fun d => d.startBeat0 us

end Sys2Proof.Machine
end

