-- ==== Sys2Proof/Machine/BeatCmds.lean ====
section
/-! DEFINITION. The commands of the beat boundary and of the events that fall due at one (R40, R71, R214,
R215, R224, R225, R254-R260, R453, R515, R618). A beat boundary meets every condition its device can see; the commands
of one condition alone do its work in the beat under way, when the condition holds. -/

namespace Sys2Proof.Machine

/-- BEAT_BOUNDARY, with what the pins present (R40). After a loss of PLL lock beat boundaries are outside every statement
(R22). -/
def execBeatBoundary (i : BoundaryIn) (s : State) : Answer :=
  if !s.dev.inReset && s.dev.clk.run && !s.dev.clk.pllLock && s.dev.pst.chipReq.isNone then .fault .pllUnlocked
  else onDev s fun d => d.boundary i

/-- The grace of coach c ends: the slot of the old stage is cleared, the coach returns to ONE, and a derived coach queues
the next stage (R215). -/
def Dev.graceEnd (d : Dev) (c : Nat) : Dev :=
  let x := d.co c
  d.when (x.sw == SwState.grace && x.grace ≤ 1) fun d =>
    (d.setCo c { keepSlot x x.stage with sw := .one, grace := 0 }).queueStage c (x.stage + 1)

/-- GRACE_END (R215). -/
def execGraceEnd (c : Nat) (s : State) : Answer := onDev s fun d => d.graceEnd c

/-- A stage advance of coach c is due in the beat under way: READY with the Thatch gate open and the floor allowing it
moves to TX_AHEAD, any other state keeps ADV_PEND (R214-R216, R220). A chock that is due stands where no switch is made
(R217, R225). -/
def Dev.advanceNow (d : Dev) (c : Nat) : Dev :=
  let x := d.co c
  let used := fun (x : CoachDyn) => { x with hitHard := false, errDue := false }
  if x.sw == SwState.empty then d
  else if x.sw == SwState.ready && d.floorAllows c (x.stage + 1) && (!d.isThatchCoach c || x.lastNxt) then
    d.setCo c (used (enterStage x (x.stage + 1) d.beat .txAhead))
  else d.setCo c (used { chockIfDue x with advPend := true })

/-- ADV_PERIOD x 2^20 beats have passed since the transmit stage of coach c began (R214). -/
def Dev.timedAdvance (d : Dev) (c : Nat) : Dev :=
  let per := d.fld .CO_ADV [c] 15 0
  d.when (per != 0 && per * 2 ^ 20 ≤ d.beat - (d.co c).began) fun d => d.advanceNow c

/-- TIMED_ADVANCE (R214). -/
def execTimedAdvance (c : Nat) (s : State) : Answer := onDev s fun d => d.timedAdvance c

/-- The next transmit PN of coach c has reached the soft limit (R214, R226). -/
def Dev.softLimit (d : Dev) (c : Nat) : Dev := d.when (d.softLim c ≤ pnOf (d.co c)) fun d => d.advanceNow c

/-- PN_SOFT_LIMIT (R214). -/
def execPnSoftLimit (c : Nat) (s : State) : Answer := onDev s fun d => d.softLimit c

/-- The next transmit PN of coach c has reached the hard limit: it is chocked, unless it switches at once (R217, R225). -/
def Dev.hardLimit (d : Dev) (c : Nat) : Dev :=
  d.when ((d.co c).hitHard || d.hardLim c ≤ pnOf (d.co c)) fun d =>
    (d.modCo c fun x => { x with hitHard := true }).advanceNow c

/-- PN_HARD_LIMIT (R225). -/
def execPnHardLimit (c : Nat) (s : State) : Answer := onDev s fun d => d.hardLimit c

/-- SUPERVISION_EXPIRY of time base n (R453). -/
def execSupervisionExpiry (n : Nat) (s : State) : Answer :=
  onDev s fun d => d.when (decide (n < 4)) fun d => d.supvExpire n d.beat

/-- THROTTLE_END (R618). -/
def execThrottleEnd (s : State) : Answer := onDev s Dev.throttleEnd

/-- SYNCING is in phase DRAIN and no ghost remains: the device becomes STANDBY, and DET returns to 1 (R58, R515). -/
def Dev.syncEnd (d : Dev) : Dev :=
  d.when (d.pair.state == PairState.syncing && d.pair.phase == 3 && d.ghosts == 0) fun d => d.syncDone d.beat

/-- SYNC_COMPLETE (R515). -/
def execSyncComplete (s : State) : Answer := onDev s Dev.syncEnd

/-- MASK_REDRAW (R254). -/
def execMaskRedraw (s : State) : Answer := onDev s fun d => d.maskRedraw d.beat

/-- MASK_SWEEP_END (R254). -/
def execMaskSweepEnd (s : State) : Answer := onDev s Dev.maskSweepEnd

/-- KNOWN_ANSWER_TEST: the engine's test job ends (R260). -/
def execKnownAnswerTest (pass : Bool) (s : State) : Answer := onDev s fun d => d.headEnds.knownAnswer pass

/-- TRNG_HEALTH_FAIL (R256). -/
def execTrngHealthFail (s : State) : Answer := onDev s Dev.trngFail

/-- TRNG_RECOVER (R256). -/
def execTrngRecover (s : State) : Answer := onDev s Dev.trngRecover

/-- BEAT_ALARM: BEAT_COUNT has just become the alarm beat (R71). -/
def execBeatAlarm (s : State) : Answer := onDev s fun d => d.when (d.clk.run && d.clk.cclk == 0) fun d => d.alarm d.beat

end Sys2Proof.Machine
end

