-- ==== Sys2Proof/Machine/CoachCmds.lean ====
section
/-! DEFINITION. The commands of derivations, probes, the stage floor and the connectivity-key store (R211,
R220, R224, R280). -/

namespace Sys2Proof.Machine

/-- PROBE_EXPIRY of Inbound pipe `pipe` (R224). -/
def execProbeExpiry (pipe : Nat) (s : State) : Answer := onDev s fun d => d.expireProbe d.beat pipe

/-- The derivation at the head of the queue takes the engine in this beat, once (R211, R258). -/
def Dev.derive (d : Dev) : Dev :=
  d.when (d.clk.run && d.vault.engOk && !d.vault.drvBeat && d.vault.drvDone.isNone) fun d => Dev.runDerivation d.vault.drv d

/-- DERIVATION_RUN (R211). -/
def execDerivationRun (s : State) : Answer := onDev s Dev.derive

/-- FLOOR_TAKE_EFFECT (R220). -/
def execFloorTakeEffect (s : State) : Answer := onDev s fun d => d.floorEffect d.beat

/-- FLOOR_WRITE_DONE: erase, program and read-back of a floor record completed (R220, R487). -/
def execFloorWriteDone (ok : Bool) (s : State) : Answer := onDev s fun d => d.floorWritten ok

/-- CK_COMMIT_WRITE_DONE: the flash write of a CK commit ends (R280, R281). -/
def execCkCommitWriteDone (ok : Bool) (s : State) : Answer := onDev s fun d => d.ckWritten ok

end Sys2Proof.Machine
end

