-- ==== Sys2Proof/Machine/PortCmds.lean ====
section
/-! DEFINITION. The commands of the ports, of the pipes and of Thatch mode (R25, R78, R87, R103, R106, R142,
R143, R159, R178-R190). A port is its slot of R386; the rows of Thatch mode name the line port 0-31 (log entry 3). -/

namespace Sys2Proof.Machine

/-- ARRIVAL_ASSIGNMENT: a frame's eave point in quarter `phi` of CCLK `offset` (R25, R447). -/
def execArrivalAssignment (port offset phi : Nat) (frame : Bytes) (s : State) : Answer :=
  onDevAt s offset fun d => d.arrive port phi frame

/-- What a port presents changes: its PCS and FEC lock on its lanes as their markers number them, its signal, and the codewords
corrected and found not correctable since the last change (R79, R106, R119, R192, R576). -/
def Dev.phyChange (d : Dev) (p : Nat) (pcs : Bool) (fec : FecIn) (sig : Bool) : Dev :=
  d.when (decide (p < 64)) fun d =>
    let d := d.setPort p { d.port p with pcs := pcs, fec := fec.lock, sig := sig, sigLost := (d.port p).sigLost || !sig,
                                          lanes := fec.lanes }
    ((d.cnt p 16 fec.corr).cnt p 17 fec.uncorr).pmcSpread (4 + drayOf p) 6 fec.corr (some p)

/-- PORT_PHY_CHANGE (R106). -/
def execPortPhyChange (port : Nat) (pcs : Bool) (fec : FecIn) (sig : Bool) (s : State) : Answer :=
  onDev s fun d => d.phyChange port pcs fec sig

/-- Link training completes on a port with LT_EN = 1 (R78, R106). -/
def Dev.trainingDone (d : Dev) (p : Nat) : Dev :=
  d.when (decide (p < 64) && d.ltEn p) fun d => d.setPort p { d.port p with ltDone := true }

/-- LINK_TRAINING_DONE (R78). -/
def execLinkTrainingDone (port : Nat) (s : State) : Answer := onDev s fun d => d.trainingDone port

/-- OUTBOUND_PROCESS of Dray d; `errs` are the PN counter errors found (R87, R229). -/
def execOutboundProcess (k : Nat) (errs : List (Nat × PnErr)) (s : State) : Answer := onDev s fun d => d.outbound k errs

/-- INBOUND_CIPHER_START on a frame-mode line slot (R142). -/
def execInboundCipherStart (port time : Nat) (s : State) : Answer := onDevAt s time fun d => d.cipherStart port

/-- FRAME_VERDICT on a frame-mode line slot (R143, R230). -/
def execFrameVerdict (port time : Nat) (pnErr : Bool) (s : State) : Answer :=
  onDevAt s time fun d => d.nextVerdict port pnErr

/-- Line port n hands over its superframe under way, and starts the next one when its CCLK has come (R159, R174). -/
def Dev.sendStream (d : Dev) (n : Nat) (err : Option PnErr) : Dev :=
  if 32 ≤ n || d.preRun || d.still then d else
  let d := ((d.dueVerdicts).packTo n d.now).superframeSend n err
  d.packTo n d.now

/-- SUPERFRAME_SEND on a line port (R159). -/
def execSuperframeSend (port time : Nat) (err : Option PnErr) (s : State) : Answer :=
  onDevAt s time fun d => d.sendStream port err

/-- ALIGNER_POSITION: a line port's aligner examines a data-block position (R178). -/
def execAlignerPosition (port offset phi pos : Nat) (ctrl : Bool) (hdr : Bytes) (s : State) : Answer :=
  onDevAt s offset fun d => d.alignerPosition port phi pos ctrl hdr

/-- SUPERFRAME_RECEIVE: the cipher start of a line port's next position (R181, R186). -/
def execSuperframeReceive (port time : Nat) (pnErr : Bool) (s : State) : Answer :=
  onDevAt s time fun d => d.superframeReceive port pnErr

/-- SUPERFRAME_VERDICT on a line port (R186). -/
def execSuperframeVerdict (port time : Nat) (s : State) : Answer := onDevAt s time fun d => d.nextSfVerdict port

/-- RELAY_REENCRYPT_START in the Outbound pipe of Dray d (R103). -/
def execRelayReencryptStart (k time : Nat) (s : State) : Answer := onDevAt s time fun d => d.relayStart k

end Sys2Proof.Machine
end

