-- ==== Sys2Proof/Machine/EgressCmds.lean ====
section
/-! DEFINITION. The commands of the Loft and of the egress ports (R33, R107, R385, R391, R396, R401). -/

namespace Sys2Proof.Machine

/-- LOFT_PUSH by pipe 0-3 Outbound, 4-7 Inbound (R391, R397). -/
def execLoftPush (pipe time : Nat) (s : State) : Answer := onDevAt s time fun d => d.pushNext pipe

/-- GAP_MARKER_REMOVE at the head of an egress queue, after what leaves it before this CCLK (R396). -/
def execGapMarkerRemove (q time : Nat) (s : State) : Answer := onDevAt s time fun d => d.packAll.gapRemove q d.now

/-- TRANSMISSION_START on a slot, after the verdicts of its CCLK (R33, R388, R397). -/
def execTransmissionStart (slot time : Nat) (s : State) : Answer := onDevAt s time fun d => d.dueVerdicts.transmit slot

/-- RELEASE_DROP on a slot whose port does not send, after the verdicts of its CCLK (R107, R397). -/
def execReleaseDrop (slot time : Nat) (s : State) : Answer := onDevAt s time fun d => d.dueVerdicts.releaseDrop slot

/-- UNIT_TRANSMIT_COMPLETE on a slot (R385). -/
def execUnitTransmitComplete (slot time : Nat) (s : State) : Answer := onDevAt s time fun d => d.txComplete slot

/-- LOFT_UNDERRUN on a slot (R401). -/
def execLoftUnderrun (slot time : Nat) (s : State) : Answer := onDevAt s time fun d => d.underrun slot

end Sys2Proof.Machine
end

