-- ==== Sys2Proof/Machine/TableCmds.lean ====
section
/-! DEFINITION. The commands of the migration engine and of the table memory (R323, R362, R368-R373). -/

namespace Sys2Proof.Machine

/-- MIGRATION_STEP of Dray d's engine (R323, R686). -/
def execMigrationStep (k : Nat) (s : State) : Answer := onDev s fun d => d.when (decide (k < 4)) fun d => d.migrate k

/-- LINE_CHECK_FAIL: a read of line `line` of an enabled channel failed (R362). -/
def execLineCheckFail (c line : Nat) (uncorrectable : Bool) (s : State) : Answer :=
  onDev s fun d => d.when (decide (c < 8) && d.chEn c) fun d => d.lineFail c line uncorrectable

/-- CALIBRATION_READ of channel c, with the narrowest read eye it finds (R368, R369). -/
def execCalibrationRead (c eye : Nat) (s : State) : Answer := onDev s fun d => d.calRead c eye

/-- CALIBRATION_ABANDON of channel c (R369). -/
def execCalibrationAbandon (c : Nat) (s : State) : Answer :=
  onDev s fun d => d.when (decide (c < 8)) fun d => d.calAbandon c

/-- TBM_DMA_START: the host writes TBM_DMA_CTL.GO (R371). -/
def execTbmDmaStart (s : State) : Answer := onDev s fun d => d.regWrite .TBM_DMA_CTL [] 1

/-- TBM_DMA_DONE: the last record write was completed, or one was not (R379). -/
def execTbmDmaDone (ok : Bool) (s : State) : Answer := onDev s fun d => d.dmaDone ok

/-- TBM_ERROR_INJECT: the host writes TBM_INJ.ARM (R373, R379). -/
def execTbmErrorInject (c bit : Nat) (s : State) : Answer :=
  onDev s fun d => d.regWrite .TBM_INJ [] (2 ^ 31 + c % 8 * 2 ^ 28 + bit % 128)

end Sys2Proof.Machine
end

