-- ==== Sys2Proof/Machine/HostCmds.lean ====
section
/-! DEFINITION. The commands of the host over BAR0, and of the PCI Express function (R13-R17, R43-R50, R559,
R629-R644). -/

namespace Sys2Proof.Machine

/-- RWS_WRITE (R43, R637). -/
def execRwsWrite (off : Nat) (val : Word) (s : State) : Answer := onDev s fun d => d.hostWrite off val 15

/-- BATCH_SEAL: the host writes BEAT_BATCH_CTL.SEAL with MODE (R45). -/
def execBatchSeal (mode : Bool) (s : State) : Answer := onDev s fun d => d.regWrite .BEAT_BATCH_CTL [] (1 + 2 * b2n mode)

/-- BATCH_DISCARD: the host writes BEAT_BATCH_CTL.DISCARD (R50). -/
def execBatchDiscard (s : State) : Answer := onDev s fun d => d.regWrite .BEAT_BATCH_CTL [] 4

/-- REGISTER_WRITE: a request of the dwords `val` with their byte enables `be` (R13, R631). -/
def execRegisterWrite (a : HostAddr) (val : List Word) (be : List Nat) (s : State) : Answer :=
  onDev s fun d => Dev.hostWrites a (List.zip val be) d

/-- CLEARING_READ (R13, R15). -/
def execClearingRead (r : ReadReq) (s : State) : Answer := onDev s fun d => Dev.hostReads r.at_ r.bes d

/-- COHERENT_LO_READ (R634). -/
def execCoherentLoRead (r : ReadReq) (s : State) : Answer := onDev s fun d => Dev.hostReads r.at_ r.bes d

/-- UNOCCUPIED_READ (R17, R644). -/
def execUnoccupiedRead (r : ReadReq) (s : State) : Answer := onDev s fun d => Dev.hostReads r.at_ r.bes d

/-- MSIX_UNMASK: the host clears the mask of a vector (R636). -/
def execMsixUnmask (v : Nat) (s : State) : Answer :=
  onDev s fun d => d.when (decide (v < 64)) fun d => d.regWrite .MSIX_CTRL [v] 0

/-- PCIE_LINK_CHANGE (R629, R653). -/
def execPcieLinkChange (up : Bool) (speed width : Nat) (bme msixEn funcMask : Bool) (s : State) : Answer :=
  onDev s fun d => d.linkChange up speed width bme msixEn funcMask

/-- PERST_RESET (R630). -/
def execPerstReset (s : State) : Answer := onDev s Dev.pcieReset

/-- FUNCTION_LEVEL_RESET (R630). -/
def execFunctionLevelReset (s : State) : Answer := onDev s Dev.pcieReset

/-- PCIE_D3HOT (R630). -/
def execPcieD3hot (s : State) : Answer := onDev s Dev.enterD3

end Sys2Proof.Machine
end

