-- ==== Sys2Proof/Machine/FaultCmds.lean ====
section
/-! DEFINITION. The commands of the Postilion, the Whip and the performance counters (R552-R578). -/

namespace Sys2Proof.Machine

/-- PEND_CLEAR: the host writes 1 to PEND of a source (R559). -/
def execPendClear (src : Nat) (s : State) : Answer :=
  onDev s fun d => d.when (decide (src < 190)) fun d => d.regWrite .PST_SRC_STAT [src] (2 ^ 31)

/-- ALERT_ACK: the host writes PST_ALERT.ACK (R561). -/
def execAlertAck (s : State) : Answer := onDev s fun d => d.regWrite .PST_ALERT [] (2 ^ 31)

/-- FAULT_INJECT: the host writes PST_INJ with GO (R566). -/
def execFaultInject (src sev : Nat) (s : State) : Answer :=
  onDev s fun d => d.regWrite .PST_INJ [] (2 ^ 31 + sev % 4 * 2 ^ 29 + src % 256)

/-- The block whose event pulses cross from another clock to the Postilion: the Ridge lanes, and the PCI Express core; a
count past 255 then also raises F166 + b (R582, R583). -/
def crossedBlock (s : Nat) : Option Nat :=
  if 134 ≤ s && s ≤ 149 then some 14 else if s == 150 || s == 151 then some 19 else none

/-- The condition that a report gives: for F004 a rail outside its window, 5 % of nominal or, for VDD_IO, 8 %, for 10 us or longer
(R661). -/
def railBad (s : Nat) : Held → Bool
  | .is b => b
  | .rail io dev us => s == 4 && (if io then 80 else 50) < dev && 10 ≤ us

/-- A block reports `n` events of source `s` in this CCLK, or that the condition of a kind C source holds or ends (R497,
R552, R557). -/
def Dev.blockEvent (d : Dev) (s sev n : Nat) (holds : Held) : Dev :=
  if srcReserved s then d
  else if srcCond s then d.setCond s (railBad s holds)
  else
    let d := (d.pcieError s n).events s (srcSeverity s sev) n
    let d := if srcCovered s && n != 0 then d.notIntact else d
    match crossedBlock s with
    | some b => if 255 < n then d.raise (166 + b) else d
    | none => d

/-- FAULT_EVENT (R555). -/
def execFaultEvent (src sev n : Nat) (holds : Held) (s : State) : Answer := onDev s fun d => d.blockEvent src sev n holds

/-- BLOCK_RESET of the unit a source names, when a BLOCK reaction asked for it (R562). -/
def execBlockReset (src : Nat) (s : State) : Answer := onDev s fun d => d.blockReset src

/-- CHIP_RESET_REACTION (R563). -/
def execChipResetReaction (s : State) : Answer := onDev s Dev.chipReaction

/-- FAULT_WINDOW_CLOSE of a source (R555). -/
def execFaultWindowClose (src : Nat) (s : State) : Answer := onDev s fun d => d.closeWindow d.beat src

/-- WHIP_FIRE: the host writes WHP_CTL.FIRE (R567). -/
def execWhipFire (s : State) : Answer := onDev s fun d => d.regWrite .WHP_CTL [] 1

/-- WHIP_IN_EDGE after `lowNs` ns of low (R573). -/
def execWhipInEdge (lowNs time : Nat) (s : State) : Answer := onDevAt s time fun d => d.whipIn lowNs

/-- WHIP_TIME_ARM: the host writes WHP_TM_CFG (R589). -/
def execWhipTimeArm (val : Word) (s : State) : Answer := onDev s fun d => d.regWrite .WHP_TM_CFG [] val.toNat

/-- WHIP_TIME_TRIGGER (R567). -/
def execWhipTimeTrigger (s : State) : Answer := onDev s Dev.whipTime

/-- WHIP_BEAT_TRIGGER (R567). -/
def execWhipBeatTrigger (s : State) : Answer := onDev s Dev.whipBeat

/-- WHIP_OUT_FALL (R572). -/
def execWhipOutFall (time : Nat) (s : State) : Answer := onDevAt s time Dev.whipOutFall

/-- Counter k of block b counts `n` occurrences in this CCLK while its EN is 1, and wraps past 2^48 - 1 (R575, R577); a
count past 255 saturates, sets LOST and raises F166 + b (R582). -/
def Dev.pmcWrap (d : Dev) (b k n : Nat) : Dev :=
  d.when (decide (b < 20) && decide (k < 8) && d.pmcLive b k) fun d =>
    let d := d.pmcAdd b k (min n (if d.flag .PMC_CNT_CFG [b, k] 30 then 1 else 255))
    if 255 < n then (d.irq .PMC_CNT_CFG 28 [b, k]).raise (166 + b) else d

/-- PMC_COUNTER_WRAP (R577). -/
def execPmcCounterWrap (b k n : Nat) (s : State) : Answer := onDev s fun d => d.pmcWrap b k n

/-- PMC_COUNTER_WRITE: the host writes one half of a counter (R578). -/
def execPmcCounterWrite (b k : Nat) (hi : Bool) (val : Word) (s : State) : Answer :=
  onDev s fun d => d.when (decide (b < 20) && decide (k < 8)) fun d =>
    d.regWrite (if hi then .PMC_CNT_HI else .PMC_CNT_LO) [b, k] val.toNat

end Sys2Proof.Machine
end

