-- ==== Sys2Proof/Machine/TimeCmds.lean ====
section
/-! DEFINITION. The commands of the time bases, the PPS inputs and the PPS outputs (R451, R455, R466). -/

namespace Sys2Proof.Machine

/-- TIME_SNAPSHOT: the host writes TIM_SNAP_CTL.GO (R466). -/
def execTimeSnapshot (s : State) : Answer := onDev s fun d => d.regWrite .TIM_SNAP_CTL [] 1

/-- PPS_INPUT_EDGE at input i, in quarter `phi` of CCLK `time`, after a level held for `heldNs` ns (R451). -/
def execPpsInputEdge (i time phi heldNs : Nat) (falling : Bool) (s : State) : Answer :=
  onDevAt s time fun d => d.ppsEdge i phi heldNs falling

/-- PPS_OUTPUT_RISE of output o; outputs that are forced off stay low (R455, R503). -/
def execPpsOutputRise (o time : Nat) (s : State) : Answer :=
  onDevAt s time fun d => d.when (decide (o < 4) && !d.outputsOff) fun d => d.ppsRise o

/-- PPS_OUTPUT_FALL of output o (R455). -/
def execPpsOutputFall (o time : Nat) (s : State) : Answer :=
  onDevAt s time fun d => d.when (decide (o < 4)) fun d => d.ppsFall o

end Sys2Proof.Machine
end

