-- ==== Sys2Proof/Machine/VaultCmds.lean ====
section
/-! DEFINITION. The commands of the key windows, the key engine, the public-key unit, the life cycle and the
pair link key (R249, R263-R275, R643). -/

namespace Sys2Proof.Machine

/-- KW_GO of window w: the host writes word 63 of it (R269, R270, R643). -/
def Dev.writeGo (d : Dev) (w : Nat) : Dev := d.when (decide (w < 256)) fun d => d.windowWrite (256 * w + 252) 1 15

/-- STAGE_KEY_DELIVERY: KW_GO on a window of KIND 1 (R271). -/
def execStageKeyDelivery (w : Nat) (s : State) : Answer := onDev s fun d => d.writeGo w

/-- CK_DELIVERY: KW_GO on a window of KIND 2 (R271). -/
def execCkDelivery (w : Nat) (s : State) : Answer := onDev s fun d => d.writeGo w

/-- CK_ERASE: KW_GO on a window of KIND 3 (R271). -/
def execCkErase (w : Nat) (s : State) : Answer := onDev s fun d => d.writeGo w

/-- KEY_WINDOW_WRITE (R643). -/
def execKeyWindowWrite (off : Nat) (val : Word) (be : Nat) (s : State) : Answer :=
  onDev s fun d => d.windowWrite off val be

/-- KEY_JOB_START: at the next block start the oldest job takes the engine (R257, R258, R267). -/
def execKeyJobStart (s : State) : Answer := onDev s fun d => d.nextBlock.keyJobStart

/-- KEY_JOB_END: the last block of the job at the head of the queue ends (R257-R259, R272). -/
def execKeyJobEnd (s : State) : Answer := onDev s fun d => d.headEnds.keyJobEnd

/-- KEK_AGREEMENT into slot k: the host writes VLT_PK_CTL with GO and OP 1 (R264, R294). -/
def execKekAgreement (k : Nat) (s : State) : Answer :=
  onDev s fun d => d.regWrite .VLT_PK_CTL [] (2 ^ 31 + 2 ^ 28 + k % 16 * 2 ^ 24)

/-- ATTESTATION: the host writes VLT_PK_CTL with GO and OP 2 (R265, R294). -/
def execAttestation (s : State) : Answer := onDev s fun d => d.regWrite .VLT_PK_CTL [] (2 ^ 31 + 2 * 2 ^ 28)

/-- PK_OPERATION_DONE (R263). -/
def execPkOperationDone (s : State) : Answer := onDev s Dev.pkDone

/-- The check value job of KEK slot k, at the head of the queue, has run its block (R258, R259, R264). -/
def Dev.checkJob (d : Dev) (k : Nat) : Dev :=
  match d.vault.jobs with
  | j :: _ => d.when (j.work == JobWork.checkValue k && d.jobOver j) fun d => d.checkValue k
  | [] => d

/-- KEK_CHECK_VALUE (R264). -/
def execKekCheckValue (k : Nat) (s : State) : Answer := onDev s fun d => d.headEnds.checkJob k

/-- The life-cycle command that GO started is checked and carried out; the record names its operation (R248, R249). -/
def Dev.lcRun (d : Dev) (otpOk : OtpEnd) : Dev := d.when d.vault.lcBusy fun d => d.lcCommand otpOk

/-- LC_CLAIM (R249). -/
def execLcClaim (otpOk : OtpEnd) (s : State) : Answer := onDev s fun d => d.lcRun otpOk

/-- LC_TRANSFER (R249). -/
def execLcTransfer (otpOk : OtpEnd) (s : State) : Answer := onDev s fun d => d.lcRun otpOk

/-- LC_RETURN (R249). -/
def execLcReturn (otpOk : OtpEnd) (s : State) : Answer := onDev s fun d => d.lcRun otpOk

/-- PAIR_LINK_KEY_EXCHANGE: the Ridge has locked, and the vault sends its lock nonce (R275). -/
def execPairLinkKeyExchange (s : State) : Answer := onDev s Dev.lockNonce

/-- PAIR_LINK_KEY_AGREED (R275). -/
def execPairLinkKeyAgreed (s : State) : Answer := onDev s Dev.linkKeyAgreed

end Sys2Proof.Machine
end

