-- ==== Sys2Proof/Machine/PairCmds.lean ====
section
/-! DEFINITION. The commands of the Ridge lanes and of the pair channels (R274, R482-R514, R538-R543). -/

namespace Sys2Proof.Machine

/-- RIDGE_FRAME_RECEIVE: lane j meets a code-group position, its elastic buffer having moved by `arrive` code groups and `cgErr`
being the code groups that came before it and after the last frame (R525, R526, R538). -/
def execRidgeFrameReceive (j pos : Nat) (arrive : Int) (cgErr marker hdr segA segB : List CodeGroup) (s : State) : Answer :=
  onDev s fun d => d.ridgeFrame j pos arrive cgErr marker hdr segA segB

/-- RIDGE_CRC_HUNT_START on lane j (R538). -/
def execRidgeCrcHuntStart (j : Nat) (s : State) : Answer := onDev s fun d => d.huntStart j

/-- RIDGE_HUNT_TIMEOUT on lane j (R538). -/
def execRidgeHuntTimeout (j : Nat) (s : State) : Answer := onDev s fun d => d.huntTimeout j

/-- RIDGE_LANE_TIMEOUT on lane j (R538). -/
def execRidgeLaneTimeout (j : Nat) (s : State) : Answer := onDev s fun d => d.laneTimeout j

/-- PARTNER_ABSENT (R540). -/
def execPartnerAbsent (s : State) : Answer := onDev s Dev.partnerAbsent

/-- PRBS_INJECT: the host writes RDG_LANE_CTL(j) with INJ, its other fields as they are (R543, R549). -/
def execPrbsInject (j : Nat) (s : State) : Answer :=
  onDev s fun d => d.when (decide (j < 16)) fun d => d.regWrite .RDG_LANE_CTL [j] (d.rd .RDG_LANE_CTL [j] % 2 ^ 31 + 2 ^ 31)

/-- PRBS_CHECKER: bits arrive on lane j, first bit first (R542). -/
def execPrbsChecker (j : Nat) (rx : List Bool) (s : State) : Answer := onDev s fun d => d.prbsChecker j rx

/-- CONTINUOUS_INJECTION: lane j sends `n` bits (R543). -/
def execContinuousInjection (j n : Nat) (s : State) : Answer := onDev s fun d => d.continuousInjection j n

/-- BOUNDARY_RECORD_RECEIVE (R482). -/
def execBoundaryRecordReceive (rec_ : Bytes) (s : State) : Answer := onDev s fun d => d.recordReceive rec_

/-- DIGEST_MESSAGE_RECEIVE (R495, R499). -/
def execDigestMessageReceive (msg : Bytes) (arrive : Int) (s : State) : Answer := onDev s fun d => d.digestReceive msg arrive

/-- COMMAND_RECEIVE (R491). -/
def execCommandReceive (cmds : List PairCmd) (s : State) : Answer := onDev s fun d => d.commandReceive cmds

/-- KEY_CHANNEL_RECEIVE: a message in the partner's frame of beat `beat` (R274, R534). -/
def execKeyChannelReceive (beat : Nat) (msg : Bytes) (s : State) : Answer := onDev s fun d => d.keyReceive beat msg

/-- COPY_RECEIVE (R514). -/
def execCopyReceive (m : CopyMsg) (s : State) : Answer := onDev s fun d => d.copyReceive m

/-- ARB_FENCE has risen for `heldNs` ns and stays as presented until the next boundary: its level is taken once it has been stable
for 20 ns (R503, R674). -/
def Dev.fencePin (d : Dev) (heldNs : Nat) : Dev :=
  let e := if pinStable heldNs then d.fenceRise d.now else d
  { e with board := { e.board with pins := { e.board.pins with fence := true, fenceNs := heldNs } } }

/-- ARB_FENCE_RISE (R503). -/
def execArbFenceRise (e : FenceEdge) (s : State) : Answer := onDevAt s e.time fun d => d.fencePin e.heldNs

end Sys2Proof.Machine
end

