-- ==== Sys2Proof/Machine/PowerCmds.lean ====
section
/-! DEFINITION. The commands of the power domains and of the configuration flash (R597, R611, R614, R615, R623). -/

namespace Sys2Proof.Machine

/-- DOMAIN_RAMP_DONE of domain x (R614). -/
def execDomainRampDone (x : Nat) (s : State) : Answer :=
  onDev s fun d => d.when (domSwitched x) fun d => d.rampDone d.beat x

/-- DOMAIN_DRAIN_DONE of domain x (R614, R615). -/
def execDomainDrainDone (x : Nat) (s : State) : Answer :=
  onDev s fun d => d.when (domSwitched x) fun d => d.drainDone d.beat x

/-- A host write of BOOT_FL_CTL with GO (R623). -/
def Dev.flWrite (d : Dev) (op len : Nat) : Dev := d.regWrite .BOOT_FL_CTL [] (2 ^ 31 + op * 2 ^ 28 + len % 512)

/-- FLASH_READ of `len` bytes at BOOT_FL_ADDR (R597). -/
def execFlashRead (len : Nat) (s : State) : Answer := onDev s fun d => d.flWrite 1 len

/-- FLASH_ERASE of the sector at BOOT_FL_ADDR (R597). -/
def execFlashErase (s : State) : Answer := onDev s fun d => d.flWrite 2 0

/-- FLASH_PROGRAM of `len` bytes of BOOT_FL_DATA (R597). -/
def execFlashProgram (len : Nat) (s : State) : Answer := onDev s fun d => d.flWrite 3 len

/-- FLASH_CHECK of the image slot at BOOT_FL_ADDR (R611). -/
def execFlashCheck (s : State) : Answer := onDev s fun d => d.flWrite 4 0

/-- FLASH_OPERATION_DONE (R623). -/
def execFlashOperationDone (ok : Bool) (s : State) : Answer := onDev s fun d => d.flDone ok

end Sys2Proof.Machine
end

