-- ==== Sys2Proof/Machine/LinkCmds.lean ====
section
/-! DEFINITION. The commands of the SMBus target and of the test access port (R645-R649, R370). -/

namespace Sys2Proof.Machine

/-- SMB_GLB_ID: Block Read with command code 0x00 (R646). -/
def execSmbGlbId (s : State) : Answer := onDev s fun d => d.smbReg 0x00 .GLB_ID

/-- SMB_BOOT_STAT: Block Read with command code 0x01 (R646). -/
def execSmbBootStat (s : State) : Answer := onDev s fun d => d.smbReg 0x01 .BOOT_STAT

/-- SMB_BEAT_STAT: Block Read with command code 0x02 (R646). -/
def execSmbBeatStat (s : State) : Answer := onDev s fun d => d.smbReg 0x02 .BEAT_STAT

/-- SMB_BEAT_COUNT: Block Read with command code 0x03 (R646). -/
def execSmbBeatCount (s : State) : Answer := onDev s fun d => d.smbItem 0x03 8 d.clk.count

/-- SMB_PAIR_STAT: Block Read with command code 0x04 (R646). -/
def execSmbPairStat (s : State) : Answer := onDev s fun d => d.smbReg 0x04 .PAIR_STAT

/-- SMB_PST_STAT: Block Read with command code 0x05 (R646). -/
def execSmbPstStat (s : State) : Answer := onDev s fun d => d.smbReg 0x05 .PST_STAT

/-- SMB_PST_FIRST: Block Read with command code 0x06 (R646). -/
def execSmbPstFirst (s : State) : Answer := onDev s fun d => d.smbReg 0x06 .PST_FIRST

/-- SMB_PST_RST_CAUSE: Block Read with command code 0x07 (R646). -/
def execSmbPstRstCause (s : State) : Answer := onDev s fun d => d.smbReg 0x07 .PST_RST_CAUSE

/-- SMB_PWR_TEMP: Block Read with command code 0x08 (R646). -/
def execSmbPwrTemp (s : State) : Answer := onDev s fun d => d.smbReg 0x08 .PWR_TEMP

/-- SMB_PWR_THERM: Block Read with command code 0x09 (R646). -/
def execSmbPwrTherm (s : State) : Answer := onDev s fun d => d.smbReg 0x09 .PWR_THERM

/-- SMB_TBM_STAT: Block Read with command code 0x0A (R646). -/
def execSmbTbmStat (s : State) : Answer := onDev s fun d => d.smbReg 0x0A .TBM_STAT

/-- SMB_RDG_STAT: Block Read with command code 0x0B (R646). -/
def execSmbRdgStat (s : State) : Answer := onDev s fun d => d.smbReg 0x0B .RDG_STAT

/-- SMB_VLT_STAT: Block Read with command code 0x0C (R646). -/
def execSmbVltStat (s : State) : Answer := onDev s fun d => d.smbReg 0x0C .VLT_STAT

/-- SMB_SERIAL: Block Read with command code 0x0D (R646). -/
def execSmbSerial (s : State) : Answer := onDev s fun d => d.smbItem 0x0D 8 d.serialShown

/-- SMB_BOOT_IMG_SEQ: Block Read with command code 0x0E (R646). -/
def execSmbBootImgSeq (s : State) : Answer := onDev s fun d => d.smbReg 0x0E .BOOT_IMG_SEQ

/-- SMB_OTHER_TRANSACTION (R646). -/
def execSmbOtherTransaction (blockRead : Option Nat) (s : State) : Answer := onDev s fun d => d.smbOther blockRead

/-- JTAG_TEST_LOGIC_RESET: IDCODE is loaded, and a boundary-scan hold ends (R647, R648). -/
def execJtagTestLogicReset (s : State) : Answer := onPort s fun d => d.loadIr 1

/-- BYPASS (R647). -/
def execBypass (s : State) : Answer := onPort s Dev.scanBypass

/-- IDCODE (R647). -/
def execIdcode (s : State) : Answer := onPort s Dev.scanId

/-- SAMPLE_PRELOAD (R647). -/
def execSamplePreload (preload : List Bool) (s : State) : Answer := onPort s fun d => d.scanSample preload

/-- EXTEST (R647, R648). -/
def execExtest (s : State) : Answer := onPort s fun d => d.scanExtest 3

/-- EXTEST_PULSE (R647, R648). -/
def execExtestPulse (s : State) : Answer := onPort s fun d => d.scanExtest 4

/-- EXTEST_TRAIN (R647, R648). -/
def execExtestTrain (s : State) : Answer := onPort s fun d => d.scanExtest 5

/-- HIGHZ (R647, R648). -/
def execHighz (s : State) : Answer := onPort s fun d => d.scanHeld 6

/-- CLAMP (R647, R648). -/
def execClamp (s : State) : Answer := onPort s fun d => d.scanHeld 7

/-- DBG_REG: a 24-bit BAR0 offset, a read or a write, and its data (R649). -/
def execDbgReg (off : Nat) (write : Bool) (data : Word) (s : State) : Answer := onPort s fun d => d.scanReg off write data

/-- DBG_TBL: a line of channel c read or written, or an error armed (R370). -/
def execDbgTbl (c line : Nat) (write : Bool) (inject : Option Nat) (data : BitVec 288) (s : State) : Answer :=
  onPort s fun d => d.scanTbl c line write inject data

end Sys2Proof.Machine
end

