-- ==== Sys2Proof/Machine/Dispatch.lean ====
section
/-! DEFINITION. One arm per command: a direct call of its meaning. -/

namespace Sys2Proof.Machine

def exec (i : Instr) (s : State) : Host.Outcome State Fault Refusal :=
  match i with
  | .powerOnReset => Sys2Proof.Machine.execPowerOnReset s
  | .chipReset lowNs => Sys2Proof.Machine.execChipReset lowNs s
  | .pllLockLoss => Sys2Proof.Machine.execPllLockLoss s
  | .pufAttempt errBits p => Sys2Proof.Machine.execPufAttempt errBits p s
  | .bootStageComplete stage ok info => Sys2Proof.Machine.execBootStageComplete stage ok info s
  | .tbmChannelTraining c failStep margin => Sys2Proof.Machine.execTbmChannelTraining c failStep margin s
  | .beat0Commit us => Sys2Proof.Machine.execBeat0Commit us s
  | .beatBoundary pins => Sys2Proof.Machine.execBeatBoundary pins s
  | .graceEnd c => Sys2Proof.Machine.execGraceEnd c s
  | .timedAdvance c => Sys2Proof.Machine.execTimedAdvance c s
  | .pnSoftLimit c => Sys2Proof.Machine.execPnSoftLimit c s
  | .pnHardLimit c => Sys2Proof.Machine.execPnHardLimit c s
  | .supervisionExpiry n => Sys2Proof.Machine.execSupervisionExpiry n s
  | .throttleEnd => Sys2Proof.Machine.execThrottleEnd s
  | .syncComplete => Sys2Proof.Machine.execSyncComplete s
  | .maskRedraw => Sys2Proof.Machine.execMaskRedraw s
  | .maskSweepEnd => Sys2Proof.Machine.execMaskSweepEnd s
  | .knownAnswerTest pass => Sys2Proof.Machine.execKnownAnswerTest pass s
  | .trngHealthFail => Sys2Proof.Machine.execTrngHealthFail s
  | .trngRecover => Sys2Proof.Machine.execTrngRecover s
  | .beatAlarm => Sys2Proof.Machine.execBeatAlarm s
  | .arrivalAssignment port offset phi frame => Sys2Proof.Machine.execArrivalAssignment port offset phi frame s
  | .portPhyChange port pcs fec sig => Sys2Proof.Machine.execPortPhyChange port pcs fec sig s
  | .linkTrainingDone port => Sys2Proof.Machine.execLinkTrainingDone port s
  | .outboundProcess k errs => Sys2Proof.Machine.execOutboundProcess k errs s
  | .inboundCipherStart port time => Sys2Proof.Machine.execInboundCipherStart port time s
  | .frameVerdict port time pnErr => Sys2Proof.Machine.execFrameVerdict port time pnErr s
  | .probeExpiry pipe => Sys2Proof.Machine.execProbeExpiry pipe s
  | .superframeSend port time err => Sys2Proof.Machine.execSuperframeSend port time err s
  | .alignerPosition port offset phi pos ctrl hdr => Sys2Proof.Machine.execAlignerPosition port offset phi pos ctrl hdr s
  | .superframeReceive port time pnErr => Sys2Proof.Machine.execSuperframeReceive port time pnErr s
  | .superframeVerdict port time => Sys2Proof.Machine.execSuperframeVerdict port time s
  | .relayReencryptStart k time => Sys2Proof.Machine.execRelayReencryptStart k time s
  | .loftPush pipe time => Sys2Proof.Machine.execLoftPush pipe time s
  | .gapMarkerRemove q time => Sys2Proof.Machine.execGapMarkerRemove q time s
  | .transmissionStart slot time => Sys2Proof.Machine.execTransmissionStart slot time s
  | .releaseDrop slot time => Sys2Proof.Machine.execReleaseDrop slot time s
  | .unitTransmitComplete slot time => Sys2Proof.Machine.execUnitTransmitComplete slot time s
  | .loftUnderrun slot time => Sys2Proof.Machine.execLoftUnderrun slot time s
  | .migrationStep k => Sys2Proof.Machine.execMigrationStep k s
  | .lineCheckFail c line uncorrectable => Sys2Proof.Machine.execLineCheckFail c line uncorrectable s
  | .calibrationRead c eye => Sys2Proof.Machine.execCalibrationRead c eye s
  | .calibrationAbandon c => Sys2Proof.Machine.execCalibrationAbandon c s
  | .derivationRun => Sys2Proof.Machine.execDerivationRun s
  | .floorTakeEffect => Sys2Proof.Machine.execFloorTakeEffect s
  | .ckCommitWriteDone ok => Sys2Proof.Machine.execCkCommitWriteDone ok s
  | .rwsWrite off val => Sys2Proof.Machine.execRwsWrite off val s
  | .batchSeal mode => Sys2Proof.Machine.execBatchSeal mode s
  | .batchDiscard => Sys2Proof.Machine.execBatchDiscard s
  | .registerWrite off val be => Sys2Proof.Machine.execRegisterWrite off val be s
  | .clearingRead off => Sys2Proof.Machine.execClearingRead off s
  | .coherentLoRead off => Sys2Proof.Machine.execCoherentLoRead off s
  | .pendClear src => Sys2Proof.Machine.execPendClear src s
  | .alertAck => Sys2Proof.Machine.execAlertAck s
  | .faultInject src sev => Sys2Proof.Machine.execFaultInject src sev s
  | .faultEvent src sev n holds => Sys2Proof.Machine.execFaultEvent src sev n holds s
  | .blockReset src => Sys2Proof.Machine.execBlockReset src s
  | .chipResetReaction => Sys2Proof.Machine.execChipResetReaction s
  | .faultWindowClose src => Sys2Proof.Machine.execFaultWindowClose src s
  | .msixUnmask v => Sys2Proof.Machine.execMsixUnmask v s
  | .whipFire => Sys2Proof.Machine.execWhipFire s
  | .whipInEdge lowNs time => Sys2Proof.Machine.execWhipInEdge lowNs time s
  | .whipTimeArm val => Sys2Proof.Machine.execWhipTimeArm val s
  | .whipTimeTrigger => Sys2Proof.Machine.execWhipTimeTrigger s
  | .whipBeatTrigger => Sys2Proof.Machine.execWhipBeatTrigger s
  | .whipOutFall time => Sys2Proof.Machine.execWhipOutFall time s
  | .pmcCounterWrap b k n => Sys2Proof.Machine.execPmcCounterWrap b k n s
  | .pmcCounterWrite b k hi val => Sys2Proof.Machine.execPmcCounterWrite b k hi val s
  | .timeSnapshot => Sys2Proof.Machine.execTimeSnapshot s
  | .ppsInputEdge input time phi heldNs falling => Sys2Proof.Machine.execPpsInputEdge input time phi heldNs falling s
  | .ppsOutputRise o time => Sys2Proof.Machine.execPpsOutputRise o time s
  | .ppsOutputFall o time => Sys2Proof.Machine.execPpsOutputFall o time s
  | .stageKeyDelivery w => Sys2Proof.Machine.execStageKeyDelivery w s
  | .ckDelivery w => Sys2Proof.Machine.execCkDelivery w s
  | .ckErase w => Sys2Proof.Machine.execCkErase w s
  | .keyWindowWrite off val be => Sys2Proof.Machine.execKeyWindowWrite off val be s
  | .keyJobStart => Sys2Proof.Machine.execKeyJobStart s
  | .keyJobEnd => Sys2Proof.Machine.execKeyJobEnd s
  | .kekAgreement k => Sys2Proof.Machine.execKekAgreement k s
  | .attestation => Sys2Proof.Machine.execAttestation s
  | .pkOperationDone => Sys2Proof.Machine.execPkOperationDone s
  | .kekCheckValue k => Sys2Proof.Machine.execKekCheckValue k s
  | .lcClaim otpOk => Sys2Proof.Machine.execLcClaim otpOk s
  | .lcTransfer otpOk => Sys2Proof.Machine.execLcTransfer otpOk s
  | .lcReturn otpOk => Sys2Proof.Machine.execLcReturn otpOk s
  | .pairLinkKeyExchange => Sys2Proof.Machine.execPairLinkKeyExchange s
  | .pairLinkKeyAgreed => Sys2Proof.Machine.execPairLinkKeyAgreed s
  | .ridgeFrameReceive j pos arrive cgErr marker hdr segA segB => Sys2Proof.Machine.execRidgeFrameReceive j pos arrive cgErr marker hdr segA segB s
  | .ridgeCrcHuntStart j => Sys2Proof.Machine.execRidgeCrcHuntStart j s
  | .ridgeHuntTimeout j => Sys2Proof.Machine.execRidgeHuntTimeout j s
  | .ridgeLaneTimeout j => Sys2Proof.Machine.execRidgeLaneTimeout j s
  | .partnerAbsent => Sys2Proof.Machine.execPartnerAbsent s
  | .prbsInject j => Sys2Proof.Machine.execPrbsInject j s
  | .boundaryRecordReceive rec_ => Sys2Proof.Machine.execBoundaryRecordReceive rec_ s
  | .digestMessageReceive msg arrive => Sys2Proof.Machine.execDigestMessageReceive msg arrive s
  | .commandReceive cmds => Sys2Proof.Machine.execCommandReceive cmds s
  | .keyChannelReceive beat msg => Sys2Proof.Machine.execKeyChannelReceive beat msg s
  | .copyReceive m => Sys2Proof.Machine.execCopyReceive m s
  | .arbFenceRise time => Sys2Proof.Machine.execArbFenceRise time s
  | .domainRampDone x => Sys2Proof.Machine.execDomainRampDone x s
  | .domainDrainDone x => Sys2Proof.Machine.execDomainDrainDone x s
  | .flashRead len => Sys2Proof.Machine.execFlashRead len s
  | .flashErase => Sys2Proof.Machine.execFlashErase s
  | .flashProgram len => Sys2Proof.Machine.execFlashProgram len s
  | .flashCheck => Sys2Proof.Machine.execFlashCheck s
  | .flashOperationDone ok => Sys2Proof.Machine.execFlashOperationDone ok s
  | .tbmDmaStart => Sys2Proof.Machine.execTbmDmaStart s
  | .tbmDmaDone ok => Sys2Proof.Machine.execTbmDmaDone ok s
  | .tbmErrorInject c bit => Sys2Proof.Machine.execTbmErrorInject c bit s
  | .perstReset => Sys2Proof.Machine.execPerstReset s
  | .functionLevelReset => Sys2Proof.Machine.execFunctionLevelReset s
  | .pcieD3hot => Sys2Proof.Machine.execPcieD3hot s
  | .smbGlbId => Sys2Proof.Machine.execSmbGlbId s
  | .smbBootStat => Sys2Proof.Machine.execSmbBootStat s
  | .smbBeatStat => Sys2Proof.Machine.execSmbBeatStat s
  | .smbBeatCount => Sys2Proof.Machine.execSmbBeatCount s
  | .smbPairStat => Sys2Proof.Machine.execSmbPairStat s
  | .smbPstStat => Sys2Proof.Machine.execSmbPstStat s
  | .smbPstFirst => Sys2Proof.Machine.execSmbPstFirst s
  | .smbPstRstCause => Sys2Proof.Machine.execSmbPstRstCause s
  | .smbPwrTemp => Sys2Proof.Machine.execSmbPwrTemp s
  | .smbPwrTherm => Sys2Proof.Machine.execSmbPwrTherm s
  | .smbTbmStat => Sys2Proof.Machine.execSmbTbmStat s
  | .smbRdgStat => Sys2Proof.Machine.execSmbRdgStat s
  | .smbVltStat => Sys2Proof.Machine.execSmbVltStat s
  | .smbSerial => Sys2Proof.Machine.execSmbSerial s
  | .smbBootImgSeq => Sys2Proof.Machine.execSmbBootImgSeq s
  | .smbOtherTransaction blockRead => Sys2Proof.Machine.execSmbOtherTransaction blockRead s
  | .jtagTestLogicReset => Sys2Proof.Machine.execJtagTestLogicReset s
  | .bypass => Sys2Proof.Machine.execBypass s
  | .idcode => Sys2Proof.Machine.execIdcode s
  | .samplePreload preload => Sys2Proof.Machine.execSamplePreload preload s
  | .extest => Sys2Proof.Machine.execExtest s
  | .extestPulse => Sys2Proof.Machine.execExtestPulse s
  | .extestTrain => Sys2Proof.Machine.execExtestTrain s
  | .highz => Sys2Proof.Machine.execHighz s
  | .clamp => Sys2Proof.Machine.execClamp s
  | .dbgReg off write data => Sys2Proof.Machine.execDbgReg off write data s
  | .dbgTbl c line write inject data => Sys2Proof.Machine.execDbgTbl c line write inject data s
  | .powerOnHold => Sys2Proof.Machine.execPowerOnHold s
  | .floorWriteDone ok => Sys2Proof.Machine.execFloorWriteDone ok s
  | .prbsChecker j rx => Sys2Proof.Machine.execPrbsChecker j rx s
  | .continuousInjection j n => Sys2Proof.Machine.execContinuousInjection j n s
  | .unoccupiedRead off => Sys2Proof.Machine.execUnoccupiedRead off s
  | .pcieLinkChange up speed width bme msixEn funcMask => Sys2Proof.Machine.execPcieLinkChange up speed width bme msixEn funcMask s

end Sys2Proof.Machine
end

