-- ==== Sys2Proof/Machine/Step.lean ====
section
/-! DEFINITION. A step: the command at the front of the queue, or, on an empty queue, the passing of one CCLK. -/

namespace Sys2Proof.Machine

/-- The idle step: one CCLK passes, and after CCLK 1,199 comes the boundary, with the pins as they were last presented (log
entry 2). A device in reset waits. After a loss of PLL lock the boundary is outside every statement (R22). -/
def State.idle (s : State) : Host.Outcome State Fault Refusal :=
  if s.dev.clk.cclk < 1199 then .next { s with dev := s.dev.runCmd fun d => d.tickTo (d.clk.cclk + 1) }
  else Sys2Proof.Machine.execBeatBoundary s.dev.board.pins s

/-- The command at the front runs on the device and the rest of the queue. -/
def step (s : State) : Host.Outcome State Fault Refusal :=
  match s.pending with
  | [] => s.idle
  | c :: rest => exec c { s with pending := rest }

/-- The state with the command that a table word spells put at the front of its queue. No row of the table gives bits, so
no word spells a command, and the state stays as it is. -/
def State.withFetchWord (s : State) (nbits w : Nat) : State :=
  match Sys2Proof.decodeTableWord nbits w with
  | some c => { s with pending := c :: s.pending }
  | none => s

end Sys2Proof.Machine
end

