-- ==== Sys2Proof/Safety.lean ====
section
/-! DEFINITION. What the claims are stated with: when a command runs to its end and what it leaves (frames), the interrupt
bookkeeping that is settled between commands (R635, R636), and what a device held in reset may still change. -/

namespace Sys2Proof.Machine

/-- Between commands, no write and no event is left without its message; the conditions seen last are the conditions that
hold; a vector is pending only while it is masked (R635, R636); and the condition of F186 is the one last reported (R552,
R572). -/
structure Dev.Settled (d : Dev) : Prop where
  touch : d.host.touch = 0
  event : d.pst.v4req = false
  cond  : d.host.cond = d.condMask
  pend  : ∀ v, v < 52 → bit d.host.pend v = true → d.vecMasked v = true
  lost  : (d.src 186).cond = d.outLost

/-- The interrupt bookkeeping of a state is settled. -/
def State.Settled (s : State) : Prop := s.dev.Settled

/-- A device that takes commands, between commands: not held in reset, its interrupt bookkeeping settled. -/
structure State.Ready (s : State) : Prop where
  awake   : s.dev.inReset = false
  settled : s.dev.Settled

/-- Two devices that differ in their outputs at most. -/
def Dev.sameBut (a b : Dev) : Prop := { a with out := [] } = { b with out := [] }

/-- Command c runs to its end in state s, takes nothing from the queue that waits, and leaves a device for which P holds. -/
def State.Runs (s : State) (c : Instr) (P : Dev → Prop) : Prop :=
  ∃ t, exec c s = .next t ∧ t.pending = s.pending ∧ P t.dev

/-- The parts of the device that a frame speaks of, beside the register words. -/
inductive Part where
  /-- BEAT_COUNT, RUN and PLL_LOCK. -/
  | count
  /-- The CCLK offset and the CCLK since reset release. -/
  | offset
  /-- The determinism record. -/
  | det
  | batch | vault | floor | coach | cls | tbm | loft | ports | time | pair | ridge
  /-- The Postilion, but for what it keeps within one beat to decide on messages. -/
  | pst
  | whip | boot | power
  /-- The PCI Express function, but for pending vectors and the conditions seen last. -/
  | host
  | jtag | board
  /-- The power-on hold and the halt of a fatal event. -/
  | held
  deriving DecidableEq, Repr

/-- A part is the same in two devices. -/
def Part.same : Part → Dev → Dev → Prop
  | .count, a, b => a.clk.count = b.clk.count ∧ a.clk.run = b.clk.run ∧ a.clk.pllLock = b.clk.pllLock
  | .offset, a, b => a.clk.cclk = b.clk.cclk ∧ a.clk.ticks = b.clk.ticks
  | .det, a, b => a.clk.det = b.clk.det ∧ a.clk.voidAt = b.clk.voidAt ∧ a.clk.voided = b.clk.voided
  | .batch, a, b => a.batch = b.batch
  | .vault, a, b => a.vault = b.vault
  | .floor, a, b => a.floor = b.floor
  | .coach, a, b => a.coach = b.coach
  | .cls, a, b => a.cls = b.cls
  | .tbm, a, b => a.tbm = b.tbm
  | .loft, a, b => a.loft = b.loft
  | .ports, a, b => a.ports = b.ports
  | .time, a, b => a.time = b.time
  | .pair, a, b => a.pair = b.pair
  | .ridge, a, b => a.ridge = b.ridge
  | .pst, a, b => { a.pst with inCclk := [], v4beat := none, v4req := false } = { b.pst with inCclk := [], v4beat := none, v4req := false }
  | .whip, a, b => a.whip = b.whip
  | .boot, a, b => a.boot = b.boot
  | .power, a, b => a.power = b.power
  | .host, a, b => { a.host with pend := 0, cond := 0, touch := 0 } = { b.host with pend := 0, cond := 0, touch := 0 }
  | .jtag, a, b => a.jtag = b.jtag
  | .board, a, b => a.board = b.board
  | .held, a, b => a.hold = b.hold ∧ a.halt = b.halt ∧ a.still = b.still

/-- Parts that an event which is not fatal can change. -/
def eventParts : List Part := [.pst, .det, .whip, .pair]

/-- Keys of BEAT_DET_CAUSE and BEAT_INT_STAT. -/
def detKeys : List Nat := [Reg.key .BEAT_DET_CAUSE, Reg.key .BEAT_INT_STAT]

/-- Words that an event of source s which is not fatal can change. -/
def eventKeys (s : Nat) : List Nat := Reg.key .PST_SRC_STAT [s] :: Reg.key .PST_SRC_CNT [s] :: detKeys

/-- Parts that a fatal event can change: it stops the device (R363, R564, R608). -/
def fatalParts : List Part := eventParts ++ [.loft, .ports, .boot, .ridge, .held]

/-- Words that handing over superframes can change: gaps, PTP messages and frames dropped under AIS (R174, R176, R396, R460). -/
def packKeys : List Nat :=
  ((List.range 256).map fun q => Reg.key .LOFT_QGAP [256 + q]) ++
  ((List.range 160).map fun i => Reg.key .TIM_PTP_CNT [32 + i / 5, i % 5]) ++
  (List.range 65536).map fun c => Reg.key .CST_CNT [c, 0]

/-- Words that a fatal event of source s can change: what is under way is handed over up to it, and the stomped ends are counted
(R404). -/
def fatalKeys (s : Nat) : List Nat :=
  eventKeys s ++ ((List.range 64).map fun p => Reg.key .LOFT_PORT_STOMP [p]) ++ packKeys

/-- Keys of the performance counters' registers, which count on their own in every CCLK (R575, R591). -/
def pmcKey (k : Nat) : Prop := 0x450000 ≤ k ∧ k < 0x452800

/-- A frame: every part that is not listed, and every register word that is neither listed nor a performance counter's, is
the same in both devices. -/
def Dev.Keeps (but : List Part) (keys : List Nat) (a b : Dev) : Prop :=
  (∀ p : Part, p ∉ but → p.same a b) ∧ ∀ k, k ∉ keys → ¬ pmcKey k → wordAt b.words k = wordAt a.words k

/-! What a statement says of a device before and after a command. -/

/-- The device as a command at CCLK offset `time` finds it. -/
def State.at (s : State) (time : Nat) : Dev := ({ s.dev with out := [] } : Dev).tickTo time

/-- The device as a host write finds it, counted by block 19 (R576). -/
def State.served (s : State) : Dev := ({ s.dev with out := [] } : Dev).pmcEvent 19 2

/-- The device as a host read finds it: the superframes under way handed over up to the CCLK before (R174, R632), and the read counted by
block 19 (R576). -/
def State.asked (s : State) : Dev := ({ s.dev with out := [] } : Dev).packBefore.pmcEvent 19 1

/-- The Postilion takes another event of source s in this CCLK (R557). -/
def Dev.hears (d : Dev) (s : Nat) : Prop := tgetD d.pst.inCclk s 0 < 255

/-- A 32-bit counter counts n more, and holds at all ones (R15). -/
def Dev.Counts (a b : Dev) (r : Reg) (ix : List Nat) (n : Nat) : Prop := b.rd r ix = min (a.rd r ix + n) 0xFFFFFFFF

/-- A pair of counter words counts n more, and wraps at 64 bits (R119, R236). -/
def Dev.Wide (a b : Dev) (lo hi : Reg × List Nat) (n : Nat) : Prop :=
  b.rd lo.1 lo.2 + b.rd hi.1 hi.2 * 2 ^ 32 = (a.rd lo.1 lo.2 + a.rd hi.1 hi.2 * 2 ^ 32 + n) % 2 ^ 64

/-- Status bits are set, and the other bits of the word stand. -/
def Dev.Sets (a b : Dev) (r : Reg) (ix : List Nat) (m : Nat) : Prop := b.rd r ix = a.rd r ix ||| m

/-- An event of source s reached the Postilion: it is pending and it is counted (R557). -/
def Dev.Reports (a b : Dev) (s : Nat) : Prop :=
  b.flag .PST_SRC_STAT [s] 31 = true ∧ Dev.Counts a b .PST_SRC_CNT [s] 1

/-- A beat boundary of this state ends one beat and starts the next: the device runs with PLL lock, no chip reset is under way, and it is
not SYNCING (R20-R22, R512, R563). -/
structure State.Beats (s : State) : Prop where
  awake : s.dev.inReset = false
  run   : s.dev.clk.run = true
  lock  : s.dev.clk.pllLock = true
  calm  : s.dev.pst.chipReq = none
  led   : s.dev.pair.state ≠ .syncing

/-- The beat that the next boundary starts. -/
def State.next (s : State) : Nat := s.dev.clk.count + 1

/-- Only a commit changes the word at k: it has staged fields, and none that the device sets, counts or uses up (R13, R16). -/
def onlyStaged (k : Nat) : Prop :=
  ∃ r ix, regAt k = some (r, ix) ∧ r.row.rws ≠ 0 ∧ r.row.w1c = 0 ∧ r.row.rc = 0 ∧ r ≠ .EMR_WORD ∧ r ≠ .DRQ_WORD ∧
    ∀ t d, Dev.wordEffect t d k = d

/-- What entries write at a key, in their order. -/
def valuesAt (k : Nat) (es : List Entry) : List Word :=
  es.filterMap fun e => match e with | .word j v => if j = k then some v else none | .dlv _ => none

end Sys2Proof.Machine
end

