-- ==== Sys2Proof/Certificates/Slice0/Obligations.lean ====
section
/-! DEFINITION. The claims for the provers. Each docstring says what its statement says, and cites the rules it rests on. A
statement about a command says that it runs to its end, what it leaves, and what stays the same (State.Runs, Dev.Keeps). -/

open Sys2Proof Sys2Proof.Machine

/-- For every command c and state s, a step of s with c put at the front of its queue is c run on s with the queue's
rest. That commands wait first in, first out is the model's form. (00_scope.md, 16_host_interface.md.) -/
def Obligations.FrontCommandRunsOnTheRest : Prop :=
  ∀ (c : Instr) (s : State) (rest : List Instr), step { s with pending := c :: rest } = exec c { s with pending := rest }

/-- On an empty queue a step of a device that is not held in reset passes one CCLK: the offset rises by one, and
nothing else changes but counters that count every CCLK. From CCLK 1,199 it is the beat boundary, with the pins as
they were last presented. A command at CCLK offset t finds the device at the later of its own offset and t, at most
1,199, and otherwise as it was but for such counters. Log entry 2 says that an idle step passes one CCLK, and that
commands come in the order of their CCLK. (R20, R21, R412.) -/
def Obligations.IdleStepPassesOneCclk : Prop :=
  (∀ s : State, s.pending = [] → s.Ready → s.dev.clk.cclk < 1199 →
    ∃ t, step s = .next t ∧ t.pending = [] ∧ t.dev.clk.cclk = s.dev.clk.cclk + 1 ∧ Dev.Keeps [.offset] [] s.dev t.dev) ∧
  (∀ s : State, s.pending = [] → s.dev.clk.cclk = 1199 → step s = exec (.beatBoundary s.dev.board.pins) s) ∧
  ∀ (s : State) (t : Nat), (s.at t).clk.cclk = max s.dev.clk.cclk (min t 1199) ∧ (s.at t).clk.count = s.dev.clk.count ∧
    Dev.Keeps [.offset] [] s.dev (s.at t)

/-- In every state, every command but BEAT_BOUNDARY answers a next state, and leaves the commands that wait as they
are. No command but BEAT_BOUNDARY ever stops the machine. (00_scope.md, R22.) -/
def Obligations.EveryCommandAnswersNextButBoundary : Prop :=
  ∀ (c : Instr) (s : State), (∀ i, c ≠ .beatBoundary i) → ∃ t, exec c s = .next t ∧ t.pending = s.pending

/-- In a running device whose PLL has lost lock and for which no chip reset is under way, BEAT_BOUNDARY stops with the
fault pllUnlocked; in every other state it answers a next state. R22 puts such boundaries outside every statement;
that the model stops there is its own choice, log entry 10. (R22.) -/
def Obligations.BoundaryAfterLockLossStops : Prop :=
  ∀ (i : BoundaryIn) (s : State),
    (s.dev.inReset = false → s.dev.clk.run = true → s.dev.clk.pllLock = false → s.dev.pst.chipReq = none →
      exec (.beatBoundary i) s = .fault .pllUnlocked) ∧
    ((s.dev.inReset = true ∨ s.dev.clk.run = false ∨ s.dev.clk.pllLock = true ∨ s.dev.pst.chipReq ≠ none) →
      ∃ t, exec (.beatBoundary i) s = .next t ∧ t.pending = s.pending)

/-- While PD00 holds the device in reset, every command but POWER_ON_RESET and POWER_ON_HOLD leaves everything but the
outputs of the last command as it is. While a boundary-scan instruction holds it, the same holds for every command but
those two, CHIP_RESET, the ten scans of the test port, DBG_REG and DBG_TBL. (R593, R648, R661.) -/
def Obligations.HeldDeviceChangesOutputsOnly : Prop :=
  ∀ (c : Instr) (s : State), c ≠ .powerOnReset → c ≠ .powerOnHold →
    (s.dev.hold = true → ∃ t, exec c s = .next t ∧ t.pending = s.pending ∧ s.dev.sameBut t.dev) ∧
    (s.dev.jtag.hold = true → (∀ n, c ≠ .chipReset n) → c ≠ .jtagTestLogicReset → c ≠ .bypass → c ≠ .idcode →
      (∀ l, c ≠ .samplePreload l) → c ≠ .extest → c ≠ .extestPulse → c ≠ .extestTrain → c ≠ .highz → c ≠ .clamp →
      (∀ o w v, c ≠ .dbgReg o w v) → (∀ k l w i v, c ≠ .dbgTbl k l w i v) →
      ∃ t, exec c s = .next t ∧ t.pending = s.pending ∧ s.dev.sameBut t.dev)

/-- From every state whose interrupt bookkeeping is settled, a step that answers a next state leaves it settled: the
conditions seen last are the conditions of the 52 vectors that hold, no write and no event waits for its message, a
vector is pending only while it is masked, and the condition of F186 is the one reported. The step ranges over every
command, the idle step and the beat boundary. (R635, R636, R552, R572.) -/
def Obligations.EveryStepKeepsInterruptsSettled : Prop :=
  ∀ s t : State, s.Settled → step s = .next t → t.Settled

/-- State.reset: BEAT_COUNT is 0 and RUN is 0, every register word reads its reset value, no batch is open or sealed,
no derivation, job, arrival, unit or command waits, no KEK slot, CK index or key slot holds a key, PD00 and PD04 are
ON and every other domain is OFF, the pair state is FENCED, boot is at stage 1, KIND is 0, and the interrupt
bookkeeping is settled. The values that the manual does not give are the model's, in log entry 26. (R21, R46, R266,
R501, R593, R606, R612.) -/
def Obligations.ResetStateAsTheManualSays : Prop :=
  State.reset.Settled ∧ State.reset.pending = [] ∧ State.reset.dev.clk.count = 0 ∧ State.reset.dev.clk.run = false ∧
  (∀ k, wordAt State.reset.dev.words k = keyRst k) ∧ State.reset.dev.batch.open_ = [] ∧ State.reset.dev.batch.sealed = [] ∧
  State.reset.dev.vault.drv = [] ∧ State.reset.dev.vault.jobs = [] ∧ State.reset.dev.vault.kek = [] ∧ State.reset.dev.vault.ck = [] ∧
  (∀ c, (State.reset.dev.co c).slotA = none ∧ (State.reset.dev.co c).slotB = none ∧ (State.reset.dev.co c).sw = .empty) ∧
  State.reset.dev.ports.arrivals = [] ∧ (∀ q, State.reset.dev.queue q = []) ∧
  (∀ x, State.reset.dev.domOn x = true ↔ x = 0 ∨ x = 4) ∧ State.reset.dev.pair.state = .fenced ∧
  State.reset.dev.boot.stage = 1 ∧ State.reset.dev.pst.rstKind = 0

/-- POWER_ON_RESET (KIND 0), POWER_ON_HOLD, CHIP_RESET with RESET_N low for 1,000 ns or more (KIND 1), and
CHIP_RESET_REACTION with a CHIP reaction under way (KIND 2, with its source) leave every register word at its reset
value and every other part as at reset release, but for the OTP, the flash and the pins, and, where the supply stays,
the test port. The flash stands but for what was being written: a CK slot and a floor record, neither of which begins
with its first byte any more, and the region of a host's erase or program. A shorter low, and a reaction when none is
under way, change nothing. What a write that is cut off leaves is the model's choice, log entry 21. (R220, R281, R563,
R593, R594, R661.) -/
def Obligations.ResetsClearEverythingButFlashAndFuses : Prop :=
  ∀ s : State,
    let b := s.dev.cutFlash.board
    let ck := ckSlotAddr s.dev.ckTarget.1
    let fl := floorAddr (olderRecord s.dev.floor.recs)
    let host := fun (a : Nat) => ∃ j, s.dev.boot.flJob = some j ∧
      ((j.op = 2 ∧ j.addr ≤ a ∧ a < j.addr + 65536) ∨ (j.op = 3 ∧ j.addr ≤ a ∧ a < j.addr + j.len))
    let floors := ∃ w, s.dev.floor.write = some w ∧ w.done = false ∧ w.failed = false
    (b.otp = s.dev.board.otp ∧ b.pins = s.dev.board.pins ∧
      (∀ a, ¬ (s.dev.ckWriting = true ∧ ck ≤ a ∧ a < ck + 0x40000) → ¬ (floors ∧ fl ≤ a ∧ a < fl + 4096) → ¬ host a →
        flashByte b.flash a = flashByte s.dev.board.flash a) ∧
      (s.dev.ckWriting = true → ¬ host ck → flashByte b.flash ck = 0xFF#8) ∧
      (floors → ¬ host fl → flashByte b.flash fl = 0xFF#8)) ∧
    (s.Runs .powerOnReset fun d => (∀ k, wordAt d.words k = keyRst k) ∧ Dev.Keeps [] [] (Dev.afterReset b 0 0) d) ∧
    (s.Runs .powerOnHold fun d => d.hold = true ∧ (∀ k, wordAt d.words k = keyRst k) ∧
      Dev.Keeps [.held] [] (Dev.afterReset b 0 0) d) ∧
    (s.dev.hold = false → ∀ n, 1000 ≤ n → s.Runs (.chipReset n) fun d => (∀ k, wordAt d.words k = keyRst k) ∧
      Dev.Keeps [.jtag] [] (Dev.afterReset b 1 s.dev.pst.rstSrc) d ∧ d.jtag = s.dev.jtag) ∧
    (s.dev.hold = false → s.dev.Settled → ∀ n, n < 1000 → s.Runs (.chipReset n) fun d => Dev.Keeps [] [] s.dev d) ∧
    (s.dev.inReset = false → ∀ x, s.dev.pst.chipReq = some x → s.Runs .chipResetReaction fun d =>
      (∀ k, wordAt d.words k = keyRst k) ∧ Dev.Keeps [.jtag] [] (Dev.afterReset b 2 x) d ∧ d.jtag = s.dev.jtag) ∧
    (s.Ready → s.dev.pst.chipReq = none → s.Runs .chipResetReaction fun d => Dev.Keeps [] [] s.dev d)

/-- With the supply on, EXTEST, EXTEST_PULSE, EXTEST_TRAIN, HIGHZ and CLAMP load their instruction and leave the
device as a chip reset of KIND 1 does, held: the EXTEST instructions scan the boundary register, HIGHZ and CLAMP the
bypass bit; under HIGHZ the pins float, under the others the preload cells drive them. JTAG_TEST_LOGIC_RESET, BYPASS,
IDCODE and SAMPLE_PRELOAD load theirs: from such a hold they release the device as a chip reset of KIND 1, otherwise
nothing else changes. BYPASS scans out 0, IDCODE 0x23200ABF, and SAMPLE_PRELOAD keeps the preload cells and scans the
pins. The release, the kept PST_RST_CAUSE.SRC and what a boundary scan shows are log entry 16. (R647, R648.) -/
def Obligations.TestPortScansAndHolds : Prop :=
  ∀ s : State, s.dev.hold = false →
    let b := s.dev.cutFlash.board
    (∀ c n, (c, n) ∈ [(Instr.extest, 3), (.extestPulse, 4), (.extestTrain, 5), (.highz, 6), (.clamp, 7)] →
      s.Runs c fun d => d.jtag.ir = n ∧ d.jtag.hold = true ∧ (∀ k, wordAt d.words k = keyRst k) ∧
        d.jtag.preload = s.dev.jtag.preload ∧ d.drive = (if n = 6 then .floating else .cells s.dev.jtag.preload) ∧
        .tdo (if n ≤ 5 then Config.boundarySample 0 else 0) ∈ d.out ∧
        Dev.Keeps [.jtag] [] (Dev.afterReset b 1 s.dev.pst.rstSrc) d) ∧
    (∀ c n (o : List Out), (c = .jtagTestLogicReset ∧ n = 1 ∧ o = []) ∨ (c = .bypass ∧ n = 0xFF ∧ o = [.tdo 0]) ∨
        (c = .idcode ∧ n = 1 ∧ o = [.tdo 0x23200ABF]) ∨
        ((∃ l, c = .samplePreload l) ∧ n = 2 ∧
          o = [.tdo (Config.boundarySample (if s.dev.jtag.hold = true then 0 else s.dev.fresh))]) →
      (s.dev.jtag.hold = true → s.Runs c fun d => d.jtag.ir = n ∧ d.jtag.hold = false ∧ (∀ x ∈ o, x ∈ d.out) ∧
        Dev.Keeps [.jtag] [] (Dev.afterReset b 1 s.dev.pst.rstSrc) d) ∧
      (s.dev.jtag.hold = false → s.dev.Settled → s.Runs c fun d => d.jtag.ir = n ∧ d.jtag.hold = false ∧ (∀ x ∈ o, x ∈ d.out) ∧
        Dev.Keeps [.jtag] [] s.dev d)) ∧
    (s.dev.Settled → ∀ l, s.Runs (.samplePreload l) fun d => d.jtag.preload = l)

/-- When the CCLK PLL of a device loses lock, PLL_LOCK reads 0, DET reads 0 with bit 0 of BEAT_DET_CAUSE set, an event
of F000 is pending and counted, and, as the event is fatal, the device halts with ERR_N and ALERT_N low. BEAT_COUNT
and the offset stand. Without lock the command changes nothing. (R22, R57, R363, R552, R557, R564.) -/
def Obligations.LockLossClearsLockAndReports : Prop :=
  ∀ s : State, s.Ready →
    (s.dev.clk.pllLock = true → s.dev.hears 0 → s.Runs .pllLockLoss fun d =>
      d.clk.pllLock = false ∧ d.clk.det = false ∧ d.flag .BEAT_DET_CAUSE [] 0 = true ∧ Dev.Reports s.dev d 0 ∧
      d.halt = true ∧ d.pst.fatal = true ∧ d.clk.count = s.dev.clk.count ∧ d.clk.run = s.dev.clk.run ∧
      Dev.Keeps (.count :: fatalParts) (fatalKeys 0) s.dev d) ∧
    (s.dev.clk.pllLock = false → s.Runs .pllLockLoss fun d => Dev.Keeps [] [] s.dev d)

/-- While the root is still to be regenerated and the engine has passed its known-answer test, an attempt that finds
at most 3,072 bit errors, with PUF_HELPER and PUF_CHECK valid and the check value of P in the OTP, accepts P, records
the errors and overwrites the PUF cells with zero; with more than 2,304 it also sets PUF_MARGIN and reports F009. An
attempt that fails counts and leaves the cells without power; the third sets PUF_FAIL and reports F008, which is
fatal. An engine that has not passed makes no attempt. That a check word of the OTP either fits or not is log entry
69. (R240, R241, R242, R243, R260, R552.) -/
def Obligations.PufAttemptAcceptsOrCounts : Prop :=
  ∀ (s : State) (e : Nat) (p : BitVec 256), s.Ready → s.dev.vault.rootOk = false → s.dev.vault.pufFail = false →
    s.dev.boot.vaultEnd = false → s.dev.boot.stage ≠ 15 → 2 ≤ s.dev.boot.stage →
    let o := s.dev.board.otp
    let fits := otpFits o .pufHelper = true ∧ otpFits o .pufCheck = true ∧ (aesEnc p 0#128).extractLsb' 64 64 = o.pufCheck
    (s.dev.vault.engOk = false → s.Runs (.pufAttempt e p) fun d => Dev.Keeps [] [] s.dev d) ∧
    (s.dev.vault.engOk = true →
      (e ≤ 2304 → fits → s.Runs (.pufAttempt e p) fun d => d.vault.rootOk = true ∧ d.vault.puf = p ∧ d.vault.pufErrs = e ∧
        d.vault.pufTries = s.dev.vault.pufTries + 1 ∧ d.vault.ident = identityKey p ∧ d.vault.pufCells = .zero ∧
        Dev.Keeps [.vault] [] s.dev d) ∧
      (2304 < e → e ≤ 3072 → fits → s.dev.hears 9 → s.Runs (.pufAttempt e p) fun d => d.vault.rootOk = true ∧ d.vault.puf = p ∧
        d.vault.pufMargin = true ∧ d.vault.pufCells = .zero ∧ d.flag .VLT_INT_STAT [] 6 = true ∧ Dev.Reports s.dev d 9 ∧
        Dev.Keeps (.vault :: eventParts) (Reg.key .VLT_INT_STAT :: eventKeys 9) s.dev d) ∧
      ((3072 < e ∨ ¬ fits) → s.dev.vault.pufTries + 1 ≠ 3 → s.Runs (.pufAttempt e p) fun d => d.vault.rootOk = false ∧
        d.vault.pufFail = false ∧ d.vault.pufTries = s.dev.vault.pufTries + 1 ∧ d.vault.pufCells = .off ∧
        Dev.Keeps [.vault] [] s.dev d) ∧
      ((3072 < e ∨ ¬ fits) → s.dev.vault.pufTries = 2 → s.dev.hears 8 → s.Runs (.pufAttempt e p) fun d =>
        d.vault.rootOk = false ∧ d.vault.pufFail = true ∧ d.vault.pufCells = .off ∧ Dev.Reports s.dev d 8 ∧ d.halt = true ∧
        Dev.Keeps (.vault :: fatalParts) (fatalKeys 8) s.dev d))

/-- BOOT_STAGE_COMPLETE of stage CLOCK, ended well, sets PLL_LOCK and takes the life-cycle state and epoch from the
fuses; that of stage VAULT, ended well with the root regenerated and the engine passed, sets TRNG_OK, draws the masks
of the key store and writes zero to every key slot. TBM_CHANNEL_TRAINING of a channel that the image enables leaves it
READY with its margin of 8 taps or more, or, failed at a step 1 to 5 or with a smaller margin, training-failed with an
event of F088 + c, which halts the device. (R244, R253, R256, R365, R366, R552, R606.) -/
def Obligations.StartStagesAndTraining : Prop :=
  ∀ s : State, s.Ready → s.dev.boot.stage ≠ 15 → s.dev.boot.stage ≠ 8 →
    (s.dev.boot.clockEnd = false → ∀ info, s.Runs (.bootStageComplete 1 true info) fun d => d.clk.pllLock = true ∧
      d.boot.clockEnd = true ∧ (d.vault.lc, d.vault.epoch) = fuseState s.dev.otp ∧ d.clk.count = s.dev.clk.count) ∧
    (s.dev.boot.clockEnd = true → s.dev.boot.vaultEnd = false → s.dev.vault.rootOk = true → s.dev.vault.engOk = true →
      ∀ info, s.Runs (.bootStageComplete 2 true info) fun d => d.vault.trngOk = true ∧ d.boot.vaultEnd = true ∧
        d.vault.maskA = Config.draw s.dev.fresh ∧ d.vault.maskB = Config.draw (s.dev.fresh + 1) ∧ d.vault.sweep = false ∧
        (∀ a, d.slotAt a = none) ∧ Dev.Keeps [.vault, .boot, .coach] [] s.dev d) ∧
    (∀ c step m, c < 8 → s.dev.boot.flashEnd = true → s.dev.boot.imageEnd = false → s.dev.shadowed.chEn c = true →
      tgetD s.dev.tbm.ready c 0 ≠ 1 →
      ((step = 0 ∨ 5 < step) → 8 ≤ m → s.Runs (.tbmChannelTraining c step m) fun d => tgetD d.tbm.ready c 0 = 1 ∧
        tgetD d.tbm.train c 0 = 2 ∧ tgetD d.tbm.margin c 0 = m ∧ Dev.Keeps [.tbm] [] s.dev d) ∧
      ((1 ≤ step ∧ step ≤ 5 ∨ m < 8) → s.dev.hears (88 + c) → s.Runs (.tbmChannelTraining c step m) fun d =>
        tgetD d.tbm.train c 0 = 3 ∧ Dev.Reports s.dev d (88 + c) ∧ d.halt = true ∧
        Dev.Keeps (.tbm :: fatalParts) (fatalKeys (88 + c)) s.dev d))

/-- BEAT0_COMMIT, with the start sequence through, leaves RUN = 1, BEAT_COUNT = 0, offset 0, DET = 1, the start
sequence ended with its time, and the image's values committed: a word that only commits change takes the value the
image gives it in the bits an image may set, and stands without one; at any other time the command changes nothing.
BEAT_BOUNDARY of a running device with PLL lock and no chip reset under way leaves offset 0, RUN = 1 and BEAT_COUNT
one more, and of the sealed batches those whose apply-beat is still to come; such a word takes the value that a batch
due gives its staged fields, and stands when none does. In phase ALIGN of SYNCING with a digest message held it leaves
BEAT_COUNT two or three past that message's beat, by the sign of the skew, and lengthens the beat by the skew modulo
1,200 CCLK, which is log entry 97. With a chip reset under way the boundary makes that reset. (R20, R21, R47, R48,
R58, R499, R512, R563, R604, R610.) -/
def Obligations.BeatZeroAndBoundariesCountBeats : Prop :=
  ∀ s : State, s.dev.inReset = false →
    (s.dev.boot.stage = 7 → s.dev.halt = false → s.dev.clk.run = false → ∀ us, s.Runs (.beat0Commit us) fun d =>
      d.clk.run = true ∧ d.clk.count = 0 ∧ d.clk.cclk = 0 ∧ d.clk.det = true ∧ d.boot.stage = 8 ∧ d.boot.us = us ∧
      d.boot.shadow = [] ∧ d.board.otp = s.dev.board.otp ∧ ∀ k, onlyStaged k → isRidgeReg k = false →
        (∀ v, s.dev.boot.shadow.filter (fun e => e.1 == k) = [(k, v)] →
          wordAt d.words k = mergeBits (wordAt s.dev.words k) (imgMask k) v.toNat) ∧
        ((∀ e ∈ s.dev.boot.shadow, e.1 ≠ k) → wordAt d.words k = wordAt s.dev.words k)) ∧
    (∀ us, (s.dev.boot.stage ≠ 7 ∨ s.dev.halt = true ∨ s.dev.clk.run = true) → s.dev.Settled → s.Runs (.beat0Commit us) fun d =>
      Dev.Keeps [] [] s.dev d) ∧
    (∀ i, s.dev.clk.run = true → s.dev.clk.pllLock = true → s.dev.pst.chipReq = none →
      ¬ (s.dev.pair.state = .syncing ∧ s.dev.pair.phase = 1) → s.Runs (.beatBoundary i) fun d =>
      d.clk.run = true ∧ d.clk.count = s.dev.clk.count + 1 ∧ d.clk.cclk = 0 ∧
      d.batch.sealed = s.dev.batch.sealed.filter fun b => s.dev.clk.count + 1 < b.apply) ∧
    (∀ i, s.Beats → s.Runs (.beatBoundary i) fun d => ∀ k, onlyStaged k →
      let given := valuesAt k ((s.dev.waitingTo s.next).flatMap (·.entries))
      (∀ v, given = [v] → wordAt d.words k = mergeBits (wordAt s.dev.words k) (rwsMask k) v.toNat) ∧
      (given = [] → wordAt d.words k = wordAt s.dev.words k)) ∧
    (∀ i m r, s.dev.clk.run = true → s.dev.clk.pllLock = true → s.dev.pst.chipReq = none → s.dev.pair.state = .syncing →
      s.dev.pair.phase = 1 → s.dev.pair.digests = m :: r → s.Runs (.beatBoundary i) fun d =>
      d.clk.count = m.beat + (if 0 ≤ s.dev.pair.skew then 2 else 3) ∧ d.clk.cclk = 0 ∧
      d.clk.ticks = s.dev.clk.ticks + (1200 - s.dev.clk.cclk) + (s.dev.pair.skew % 1200).toNat) ∧
    (∀ i x, s.dev.pst.chipReq = some x → s.Runs (.beatBoundary i) fun d =>
      Dev.Keeps [.jtag] [] (Dev.afterReset { s.dev.cutFlash.board with pins := i } 2 x) d ∧ d.jtag = s.dev.jtag)

/-- When coach c is in GRACE with at most one boundary left, GRACE_END keeps only the slot of its transmit stage,
leaves it in ONE with GRACE_LEFT 0, and, for a derived coach, raises the derivation of the next stage, which joins the
queue at the boundary. Every other coach stands. Otherwise the command changes nothing. (R211, R215.) -/
def Obligations.GraceEndReturnsToOne : Prop :=
  ∀ (s : State) (c : Nat), s.Ready →
    let x := s.dev.co c
    (x.sw = .grace → x.grace ≤ 1 → s.Runs (.graceEnd c) fun d => d.co c = { keepSlot x x.stage with sw := .one, grace := 0 } ∧
      (∀ j, j ≠ c → d.co j = s.dev.co j) ∧
      d.vault.drvNew = s.dev.vault.drvNew ++ (if s.dev.kind c = .derived ∧ x.stage + 1 ≤ 0xFFFFFFFF then [⟨c, x.stage + 1, none⟩] else []) ∧
      Dev.Keeps [.coach, .vault] [] s.dev d) ∧
    (¬ (x.sw = .grace ∧ x.grace ≤ 1) → s.Runs (.graceEnd c) fun d => Dev.Keeps [] [] s.dev d)

/-- When the cause of the command is met for coach c (its period has passed, or its next PN has reached the soft or
the hard limit), a coach in READY whose next stage the floor allows and, on a Thatch port, whose last superframe
showed NXT, transmits the next stage from this beat in TX_AHEAD with PN 1, its chock ended. Any other coach with a
stage shows ADV_PEND, and after the hard limit is chocked with cause HARD_LIMIT unless its mirror is bad. Every other
coach stands. (R214, R215, R216, R217, R220, R225, R226.) -/
def Obligations.DueAdvancesSwitchOrPend : Prop :=
  ∀ (s : State) (c : Nat) (cmd : Instr), s.Ready →
    let x := s.dev.co c
    let due := (cmd = .timedAdvance c ∧ s.dev.fld .CO_ADV [c] 15 0 ≠ 0 ∧
        s.dev.fld .CO_ADV [c] 15 0 * 2 ^ 20 ≤ s.dev.beat - x.began) ∨
      (cmd = .pnSoftLimit c ∧ s.dev.softLim c ≤ pnOf x) ∨ (cmd = .pnHardLimit c ∧ s.dev.hardLim c ≤ pnOf x)
    let goes := x.sw = .ready ∧ s.dev.floorAllows c (x.stage + 1) = true ∧ (s.dev.isThatchCoach c = false ∨ x.lastNxt = true)
    due →
    (goes → s.Runs cmd fun d => (d.co c).sw = .txAhead ∧ (d.co c).stage = x.stage + 1 ∧ pnOf (d.co c) = 1 ∧
      (d.co c).began = s.dev.beat ∧ (d.co c).chock = false ∧ (d.co c).advPend = false ∧ (d.co c).slotA = x.slotA ∧
      (d.co c).slotB = x.slotB ∧ (∀ j, j ≠ c → d.co j = s.dev.co j) ∧ Dev.Keeps [.coach] [] s.dev d) ∧
    (¬ goes → x.sw ≠ .empty → s.Runs cmd fun d => (d.co c).advPend = true ∧ (d.co c).sw = x.sw ∧ (d.co c).stage = x.stage ∧
      pnOf (d.co c) = pnOf x ∧ (cmd = .pnHardLimit c → x.mirBad = false → (d.co c).chock = true ∧ (d.co c).cause = .hardLimit) ∧
      (∀ j, j ≠ c → d.co j = s.dev.co j) ∧ Dev.Keeps [.coach] [] s.dev d)

/-- When the watchdog of time base n has run out, SUPERVISION_EXPIRY leaves it in HOLDOVER, shows TB_CHG and reports
F096. After 1,048,576 readings at or below the throttle's end, THROTTLE_END ends the throttle and shows it. At CCLK 0
of the alarm beat with the alarm enabled, BEAT_ALARM shows ALARM. A beat boundary takes a time base that PPS does not
discipline to the state, but TRACK, that a commit left it to move to. Where its condition is not met, a command
changes nothing. (R71, R453, R470, R618, R552.) -/
def Obligations.BoundaryConditionsMetAtOnce : Prop :=
  ∀ s : State, s.Ready →
    let due := s.dev.clk.run = true ∧ s.dev.clk.cclk = 0 ∧ s.dev.flag .BEAT_ALARM_CTL [] 0 = true ∧
      s.dev.beat = s.dev.rd .BEAT_ALARM_LO + s.dev.rd .BEAT_ALARM_HI * 2 ^ 32
    (∀ n, n < 4 → s.dev.supvExpired n s.dev.beat = true → s.dev.hears 96 → s.Runs (.supervisionExpiry n) fun d =>
      d.tb n = { s.dev.tb n with state := .holdover } ∧ (∀ m, m ≠ n → d.tb m = s.dev.tb m) ∧
      Dev.Sets s.dev d .TIM_INT_STAT [] (2 ^ n) ∧ Dev.Reports s.dev d 96 ∧
      Dev.Keeps (.time :: eventParts) (Reg.key .TIM_INT_STAT :: eventKeys 96) s.dev d) ∧
    (∀ n, ¬ (n < 4 ∧ s.dev.supvExpired n s.dev.beat = true) → s.Runs (.supervisionExpiry n) fun d => Dev.Keeps [] [] s.dev d) ∧
    (s.dev.power.throttle = true → 1048576 ≤ s.dev.power.cool → s.Runs .throttleEnd fun d => d.power.throttle = false ∧
      Dev.Sets s.dev d .PWR_INT_STAT [] 2 ∧ Dev.Keeps [.power] [Reg.key .PWR_INT_STAT] s.dev d) ∧
    (¬ (s.dev.power.throttle = true ∧ 1048576 ≤ s.dev.power.cool) → s.Runs .throttleEnd fun d => Dev.Keeps [] [] s.dev d) ∧
    (∀ i n st, s.Beats → n < 4 → (s.dev.tb n).next = some st → st ≠ .track → s.dev.supv n ≠ 2 →
      s.Runs (.beatBoundary i) fun d => (d.tb n).state = st ∧ ((s.dev.tb n).state ≠ st → d.flag .TIM_INT_STAT [] n = true)) ∧
    (due → s.Runs .beatAlarm fun d => Dev.Sets s.dev d .BEAT_INT_STAT [] 1 ∧ Dev.Keeps [] [Reg.key .BEAT_INT_STAT] s.dev d) ∧
    (¬ due → s.Runs .beatAlarm fun d => Dev.Keeps [] [] s.dev d)

/-- In SYNCING, phase DRAIN, with no ghost left, SYNC_COMPLETE leaves the device STANDBY from this beat, INTACT and
DET at 1, counts the completed SYNCING and shows STATE_CHG and SYNC_DONE. Otherwise it changes nothing. At a beat
boundary of a device that is not SYNCING, with both pins stable: ARB_FENCE makes it FENCED; without it, ARB_ROLE = 0
makes a SOLO device FENCED and leaves a FENCED one so, and ARB_ROLE = 1 without PARTNER_OK makes a FENCED or ACTIVE
device, or a STANDBY that coasts or hears nothing, SOLO, and leaves a SOLO one so. Where an ACTIVE in step holds both
devices' digests of the beat before the last and they differ, the boundary sets the bits of PAIR_DIG_DIFF, counts, and
reports F058. (R58, R480, R496, R501, R505, R515, R523, R674.) -/
def Obligations.SyncCompleteLeavesStandbyIntact : Prop :=
  ∀ s : State, s.Ready →
    let due := s.dev.pair.state = .syncing ∧ s.dev.pair.phase = 3 ∧ s.dev.ghosts = 0
    (due → s.Runs .syncComplete fun d => d.pair.state = .standby ∧ d.pair.since = s.dev.beat ∧ d.pair.intact = true ∧
      d.clk.det = true ∧ Dev.Counts s.dev d .PAIR_CNT [7] 1 ∧ Dev.Sets s.dev d .PAIR_INT_STAT [] 129 ∧
      Dev.Keeps [.pair, .det] [Reg.key .PAIR_CNT [7], Reg.key .PAIR_INT_STAT] s.dev d) ∧
    (¬ due → s.Runs .syncComplete fun d => Dev.Keeps [] [] s.dev d) ∧
    (∀ i, s.Beats → 20 ≤ i.roleNs → 20 ≤ i.fenceNs →
      let p := s.dev.pair
      let ends := fun (x : PairState) => s.Runs (.beatBoundary i) fun d => d.pair.state = x
      (i.fence = true → ends .fenced) ∧
      (i.fence = false → i.role = false → p.state = .solo → ends .fenced) ∧
      (i.fence = false → i.role = false → p.state = .fenced → s.dev.partnerOk = false → ends .fenced) ∧
      (i.fence = false → i.role = true → s.dev.partnerOk = false →
        (p.state = .standby → p.coast = true ∨ s.dev.silent s.next = true) → ends .solo)) ∧
    (∀ i v, s.Beats → s.dev.pair.state = .active → s.dev.pair.handed = false → s.dev.inStep = true →
      s.dev.digestDiff (s.dev.clk.count - 1) = some v → v ≠ 0 → s.Runs (.beatBoundary i) fun d =>
      Dev.Sets s.dev d .PAIR_DIG_DIFF [] v ∧ Dev.Counts s.dev d .PAIR_CNT [3] 1 ∧ d.flag .PAIR_INT_STAT [] 1 = true ∧
      Dev.Reports s.dev d 58)

/-- At a beat that is a multiple of 2^20, not 0, with TRNG_OK and no sweep running, MASK_REDRAW draws the mask that is
not in use, makes it the one in use and starts a sweep; every slot of the key store still holds what it held, at the
same place. When the sweep has rewritten all 131,072 slots, MASK_SWEEP_END ends it and makes the old mask zero.
Otherwise the commands change nothing. (R253, R254, R255, R256.) -/
def Obligations.MasksAreRedrawnAndSwept : Prop :=
  ∀ s : State, s.Ready →
    let v := s.dev.vault
    let draws := sweepDue s.dev.beat = true ∧ v.trngOk = true ∧ v.sweep = false
    (draws → s.Runs .maskRedraw fun d => d.vault = { v with
        gen := !v.gen, sweep := true, sweepPos := 0,
        maskA := if v.gen then Config.draw s.dev.fresh else v.maskA, maskB := if v.gen then v.maskB else Config.draw s.dev.fresh } ∧
      d.coach = { s.dev.coach with remasked := [] } ∧ (∀ a, d.slotGen a = v.gen ∧ d.stored a = s.dev.stored a) ∧
      Dev.Keeps [.vault, .coach] [] s.dev d) ∧
    (¬ draws → s.Runs .maskRedraw fun d => Dev.Keeps [] [] s.dev d) ∧
    (v.sweep = true → 131072 ≤ v.sweepPos → s.Runs .maskSweepEnd fun d => d.vault = { v with
        sweep := false, sweepPos := 0,
        maskA := if v.gen then 0 else v.maskA, maskB := if v.gen then v.maskB else 0 } ∧ Dev.Keeps [.vault] [] s.dev d) ∧
    (¬ (v.sweep = true ∧ 131072 ≤ v.sweepPos) → s.Runs .maskSweepEnd fun d => Dev.Keeps [] [] s.dev d)

/-- KNOWN_ANSWER_TEST before beat 0 sets the engine's OK when it passes. In a running device it ends the test job at
the head of the queue, when that ends in this beat, and takes it out; with another job there it changes nothing. A
failure clears the engine's OK, reports F011 and halts the device. TRNG_HEALTH_FAIL of a device past stage VAULT
clears TRNG_OK, shows it and makes the condition of F010 hold; TRNG_RECOVER after 2^20 passing beats sets TRNG_OK
again and ends the condition. (R256, R258, R259, R260, R552, R557.) -/
def Obligations.SelfTestsPassAndFail : Prop :=
  ∀ s : State, s.Ready →
    let v := s.dev.vault
    (s.dev.clk.run = false → s.Runs (.knownAnswerTest true) fun d => d.vault = { v with engOk := true } ∧
      Dev.Keeps [.vault, .offset] [] s.dev d) ∧
    (s.dev.clk.run = false → s.dev.hears 11 → s.Runs (.knownAnswerTest false) fun d =>
      d.vault = { v with engOk := false } ∧ Dev.Reports s.dev d 11 ∧ d.halt = true ∧
      Dev.Keeps (.vault :: .offset :: fatalParts) (fatalKeys 11) s.dev d) ∧
    (∀ j rest c, s.dev.clk.run = true → v.jobs = j :: rest → j.work = .knownAnswer → s.dev.jobEnds j = some c →
      (s.Runs (.knownAnswerTest true) fun d => d.vault = { v with jobs := rest } ∧ d.clk.cclk = max s.dev.clk.cclk (min c 1199) ∧
        Dev.Keeps [.vault, .offset] [] s.dev d) ∧
      (s.dev.hears 11 → s.Runs (.knownAnswerTest false) fun d => d.vault = { v with engOk := false, jobs := rest } ∧
        Dev.Reports s.dev d 11 ∧ d.halt = true ∧ Dev.Keeps (.vault :: .offset :: fatalParts) (fatalKeys 11) s.dev d)) ∧
    (s.dev.clk.run = true → (∀ j ∈ v.jobs.head?, j.work ≠ .knownAnswer) → ∀ b, s.Runs (.knownAnswerTest b) fun d =>
      Dev.Keeps [.offset] [] s.dev d) ∧
    ((s.dev.clk.run = true ∨ s.dev.boot.vaultEnd = true) → s.Runs .trngHealthFail fun d => d.vault.trngOk = false ∧
      d.vault.trngRun = 0 ∧ (d.src 10).cond = true ∧ Dev.Sets s.dev d .VLT_INT_STAT [] 128 ∧
      Dev.Keeps (.vault :: eventParts) (Reg.key .VLT_INT_STAT :: eventKeys 10) s.dev d) ∧
    (s.dev.vault.trngOk = false → 2 ^ 20 < s.dev.vault.trngRun → s.Runs .trngRecover fun d => d.vault.trngOk = true ∧
      (d.src 10).cond = false ∧ Dev.Keeps [.vault, .pst] [] s.dev d)

/-- DERIVATION_RUN with the engine free in the beat takes the request at the head of the queue, whose CK index holds a
key, and holds the key and salt that R211 derives for its coach and stage, with NEXT_PN 1. PROBE_EXPIRY, 1,024 beats
after a probe slot was loaded in which nothing verified, clears the slot and its coach's PROBE unless another pipe
probes for it. FLOOR_TAKE_EFFECT, 65,536 beats after a written F' began, makes it the floor; one that was not written
leaves the floor, unless the active's event named it, and reports F015. (R207, R211, R220, R224, R231, R258.) -/
def Obligations.StageKeysDerivedProbedAndFloored : Prop :=
  ∀ s : State, s.Ready →
    (∀ r rest ck, s.dev.clk.run = true → s.dev.vault.engOk = true → s.dev.vault.drvBeat = false → s.dev.vault.drvDone = none →
      s.dev.vault.drv = r :: rest → tget s.dev.vault.ck (s.dev.ckIndex r.coach) = some ck → s.Runs .derivationRun fun d =>
      d.vault = { s.dev.vault with
        drv := rest, drvBeat := true,
        drvDone := some (r, { key := (deriveStage ck r.coach r.stage).1, salt := (deriveStage ck r.coach r.stage).2,
                              stage := r.stage, nextPn := 1, rxBad := false }) } ∧ Dev.Keeps [.vault] [] s.dev d) ∧
    (∀ k p, tget s.dev.coach.probe k = some p → p.slot ≠ none → p.loadedAt + 1024 ≤ s.dev.beat → (s.dev.co p.coach).jump ≠ some k →
      s.Runs (.probeExpiry k) fun d =>
      tget d.coach.probe k = none ∧ (∀ j, j ≠ k → tget d.coach.probe j = tget s.dev.coach.probe j) ∧
      d.co p.coach = { s.dev.co p.coach with
        probe := (s.dev.co p.coach).probe && s.dev.coach.probe.any fun e => e.1 != k && e.2.coach == p.coach } ∧
      (∀ j, j ≠ p.coach → d.co j = s.dev.co j) ∧ Dev.Keeps [.coach] [] s.dev d) ∧
    (∀ k p, tget s.dev.coach.probe k = some p → (p.slot = none ∨ s.dev.beat < p.loadedAt + 1024 ∨ (s.dev.co p.coach).jump = some k) →
      s.Runs (.probeExpiry k) fun d => Dev.Keeps [] [] s.dev d) ∧
    (∀ w : FloorWrite, s.dev.floor.write = some w → w.began + 65536 ≤ s.dev.beat →
      let f := if w.told = true ∨ s.dev.partnerState = false ∧ w.inTime = true then w.f else s.dev.floor.value
      (w.done = true → (w.inTime = true ∨ s.dev.partnerState = true) → s.Runs .floorTakeEffect fun d =>
        d.floor = { s.dev.floor with value := f, write := none } ∧ Dev.Keeps [.floor] [] s.dev d) ∧
      ((w.done = false ∨ w.inTime = false ∧ s.dev.partnerState = false) → s.dev.hears 15 → s.Runs .floorTakeEffect fun d =>
        d.floor = { s.dev.floor with value := f, write := none } ∧ Dev.Reports s.dev d 15 ∧
        Dev.Keeps (.floor :: eventParts) (eventKeys 15) s.dev d)) ∧
    (∀ w : FloorWrite, s.dev.floor.write = some w → s.dev.beat < w.began + 65536 → s.Runs .floorTakeEffect fun d =>
      Dev.Keeps [] [] s.dev d)

/-- With a floor write under way, FLOOR_WRITE_DONE, ended well, leaves the older record's region with the record of F'
and the rest erased, and notes that F' is written and whether in time; ended badly, it notes that, and the floor
stands. When the engine job of a commit has ended, CK_COMMIT_WRITE_DONE, ended well, leaves the other slot, or slot 0
of an empty store, with the bytes of R278 for the snapshot and the rest erased, and makes it the valid one with the
next SEQ and result OK; ended badly, it records the failure. A commit that waits starts with a snapshot taken then.
Every other byte of the flash stands but the life records. Without such a write under way the commands change nothing.
What a write that ends badly leaves in its region is log entry 21. (R220, R278, R280, R281, R282, R598, R599.) -/
def Obligations.FlashWritesOfFloorAndKeysEnd : Prop :=
  ∀ s : State, s.Ready →
    let v := s.dev.vault
    let holds := fun (d : Dev) (at_ size : Nat) (b : Bytes) => ∀ j, j < size → flashByte d.board.flash (at_ + j) = b.getD j 0xFF#8
    let others := fun (d : Dev) (at_ size : Nat) => ∀ a, (a < at_ ∨ at_ + size ≤ a) → (a < 0x1082000 ∨ 0x1084000 ≤ a) →
      flashByte d.board.flash a = flashByte s.dev.board.flash a
    (∀ w, s.dev.floor.write = some w → w.done = false → w.failed = false →
      let at_ := floorAddr (olderRecord s.dev.floor.recs)
      (s.Runs (.floorWriteDone true) fun d =>
        d.floor.write = some { w with done := true, inTime := s.dev.floorInTime w.began } ∧ d.floor.value = s.dev.floor.value ∧
        holds d at_ 4096 (s.dev.floorBytes (newestSeq s.dev.floor.recs + 1) w.f) ∧ others d at_ 4096 ∧
        Dev.Keeps ([.floor, .board, .boot] ++ eventParts) (Reg.key .BOOT_INT_STAT :: eventKeys 19) s.dev d) ∧
      (s.Runs (.floorWriteDone false) fun d => d.floor.write = some { w with failed := true } ∧ d.floor.value = s.dev.floor.value ∧
        others d at_ 4096 ∧ Dev.Keeps ([.floor, .board, .boot] ++ eventParts) (Reg.key .BOOT_INT_STAT :: eventKeys 19) s.dev d)) ∧
    (∀ b, (∀ w, s.dev.floor.write = some w → w.done = true ∨ w.failed = true) → s.Runs (.floorWriteDone b) fun d => Dev.Keeps [] [] s.dev d) ∧
    (v.ckBusy = true → v.engOk = true → (∀ j ∈ v.jobs, j.work ≠ .ckCommit) → v.ckSnap.length ≤ 4096 →
      let t := s.dev.ckTarget
      let at_ := ckSlotAddr t.1
      let frame := fun (d : Dev) =>
        Dev.Keeps ([.vault, .board, .boot] ++ eventParts) (Reg.key .VLT_INT_STAT :: Reg.key .BOOT_INT_STAT :: eventKeys 19) s.dev d
      (v.ckPend = false → s.Runs (.ckCommitWriteDone true) fun d =>
        d.vault.ckBusy = false ∧ d.vault.ckValid = true ∧ (d.vault.ckSlot, d.vault.ckSeq) = t ∧ d.vault.ckLast = 1 ∧
        d.vault.ck = v.ck ∧ holds d at_ 0x40000 (s.dev.ckSlotBytes v.ckSnap t.2) ∧ others d at_ 0x40000 ∧
        d.flag .VLT_INT_STAT [] 3 = true ∧ frame d) ∧
      (v.ckPend = false → s.Runs (.ckCommitWriteDone false) fun d =>
        d.vault.ckBusy = false ∧ d.vault.ckLast = 2 ∧ d.vault.ckValid = v.ckValid ∧ d.vault.ckSlot = v.ckSlot ∧
        d.vault.ckSeq = v.ckSeq ∧ d.vault.ck = v.ck ∧ others d at_ 0x40000 ∧ d.flag .VLT_INT_STAT [] 4 = true ∧ frame d) ∧
      (v.ckPend = true → t.2 ≠ 0xFFFFFFFF → s.Runs (.ckCommitWriteDone true) fun d =>
        d.vault.ckBusy = true ∧ d.vault.ckPend = false ∧ d.vault.ckSnap = v.ck ∧ (d.vault.ckSlot, d.vault.ckSeq) = t ∧
        (∃ j ∈ d.vault.jobs, j.work = .ckCommit) ∧ holds d at_ 0x40000 (s.dev.ckSlotBytes v.ckSnap t.2) ∧ others d at_ 0x40000 ∧
        frame d)) ∧
    (∀ b, v.ckBusy = false → s.Runs (.ckCommitWriteDone b) fun d => Dev.Keeps [] [] s.dev d)

/-- Let a counter be in order when LO is below 65,536 and HI is not above MIRROR. A step of a device that is neither
STANDBY nor SYNCING, whatever the command, the idle step and the beat boundary among them, keeps every counter that is
in order so, and leaves its next PN no lower, unless the coach's transmit stage is a higher one or the coach was or is
in EMPTY, which it leaves only with a new key. For a coach with no code error found and a good mirror: below the hard
limit the PN given is HI x 65,536 + LO, the counter then reads one more, LO wraps into HI, and every other coach
stands; at or above it, none is given and the counter stands. With HI or LO found uncorrectable, a device that acts on
it restarts at the mirror: the PN given is (MIRROR + 1) x 65,536 below the hard limit, and MIRROR rises by 5; with
MIRROR uncorrectable none is given. The standby's counters follow the active's records and are out of the first
clause. (R215, R225, R227, R228, R229, R617.) -/
def Obligations.PacketNumbersRiseByOne : Prop :=
  (∀ s t : State, s.dev.pair.state ≠ .standby → s.dev.pair.state ≠ .syncing → step s = .next t → ∀ c,
    let x := s.dev.co c
    let y := t.dev.co c
    x.lo < 65536 → x.hi ≤ x.mirror → y.lo < 65536 ∧ y.hi ≤ y.mirror ∧
      (pnOf x ≤ pnOf y ∨ x.stage < y.stage ∨ x.sw = .empty ∨ y.sw = .empty)) ∧
  ∀ (d : Dev) (c : Nat),
    ((d.co c).pnErr = [] → (d.co c).mirBad = false → (d.co c).lo < 65536 →
      (pnOf (d.co c) < d.hardLim c → (d.takePn c).2 = some (pnOf (d.co c)) ∧ pnOf ((d.takePn c).1.co c) = pnOf (d.co c) + 1 ∧
        ((d.takePn c).1.co c).lo < 65536 ∧ (∀ j, j ≠ c → (d.takePn c).1.co j = d.co j)) ∧
      (d.hardLim c ≤ pnOf (d.co c) → (d.takePn c).2 = none ∧ pnOf ((d.takePn c).1.co c) = pnOf (d.co c))) ∧
    (d.actsOnErrors = true → (d.co c).mirBad = false →
      ((d.co c).pnErr = [.loOrHi] → ((d.co c).mirror + 1) * 65536 < d.hardLim c →
        (d.takePn c).2 = some (((d.co c).mirror + 1) * 65536) ∧ ((d.takePn c).1.co c).mirror = (d.co c).mirror + 5) ∧
      ((d.co c).pnErr = [.mirror] → (d.takePn c).2 = none ∧ ((d.takePn c).1.co c).mirBad = true ∧
        ((d.takePn c).1.co c).errDue = true))

/-- A frame that crosses the eave of a port that assigns, in quarter phi of CCLK t, becomes the last unit waiting: of
this beat, with the port's next index, offset t, phase phi, its four receive times, its bytes up to 9,216 and its
length. The port's number of units rises by one, and RX_UNITS and RX_OCTETS count it. On a port that does not assign,
nothing changes. (R25, R26, R27, R88, R105, R119, R447.) -/
def Obligations.ArrivalIsNumberedAndStamped : Prop :=
  ∀ (s : State) (p t phi : Nat) (f : Bytes), s.Ready →
    let e := s.at t
    let i := [drayOf p, cntIx p]
    (e.clk.run = true → e.still = false → p < 64 → phi < 4 → f ≠ [] → e.assigns p = true → e.follows = false →
      e.thatchMode p = false → s.Runs (.arrivalAssignment p t phi f) fun d =>
      (∃ a : Arrival, d.ports.arrivals = e.ports.arrivals ++ [a] ∧ a.port = p ∧ a.beat = e.beat ∧ a.index = (e.port p).count ∧
        a.offset = e.clk.cclk ∧ a.phi = phi ∧ a.rts = e.stamps e.now phi ∧ a.bytes = f.take 9216 ∧ a.len = f.length ∧
        a.void = false ∧ a.taken = false ∧ a.held = false) ∧
      d.port p = { e.port p with count := (e.port p).count + 1 } ∧ (∀ j, j ≠ p → d.port j = e.port j) ∧
      Dev.Wide e d (.DRY_CNT_LO, i ++ [0]) (.DRY_CNT_HI, i ++ [0]) 1 ∧
      Dev.Wide e d (.DRY_CNT_LO, i ++ [1]) (.DRY_CNT_HI, i ++ [1]) f.length ∧
      Dev.Keeps [.ports] [Reg.key .DRY_CNT_LO (i ++ [0]), Reg.key .DRY_CNT_HI (i ++ [0]), Reg.key .DRY_CNT_LO (i ++ [1]),
        Reg.key .DRY_CNT_HI (i ++ [1])] e d) ∧
    ((e.assigns p = false ∧ e.follows = false ∨ e.thatchMode p = true ∨ e.still = true) →
      s.Runs (.arrivalAssignment p t phi f) fun d => Dev.Keeps [] [] e d)

/-- PORT_PHY_CHANGE of a port slot leaves its PCS lock, FEC alignment and signal as presented, notes a loss of signal
in the beat, and adds the codewords corrected and not correctable to the port's counters where the slot is a port;
LINK_TRAINING_DONE of a port with LT_EN = 1 leaves its training done. Every other port and everything else stands. The
lanes of the port come in the order and polarity that it presents (R79), and codewords are counted as log entry 47
says. LINK_UP in effect follows at the boundaries. (R76, R78, R79, R106, R119.) -/
def Obligations.PortsShowWhatTheyPresent : Prop :=
  ∀ (s : State) (p : Nat), s.Ready → p < 64 →
    let i := [drayOf p, cntIx p]
    (∀ a f c, s.Runs (.portPhyChange p a f c) fun d =>
      d.port p = { s.dev.port p with pcs := a, fec := f.lock, sig := c, lanes := f.lanes, sigLost := (s.dev.port p).sigLost || !c } ∧
      (∀ j, j ≠ p → d.port j = s.dev.port j) ∧
      (s.dev.exists_ p = true → Dev.Wide s.dev d (.DRY_CNT_LO, i ++ [16]) (.DRY_CNT_HI, i ++ [16]) f.corr ∧
        Dev.Wide s.dev d (.DRY_CNT_LO, i ++ [17]) (.DRY_CNT_HI, i ++ [17]) f.uncorr ∧
        Dev.Keeps [.ports] ([16, 17].flatMap fun c => [Reg.key .DRY_CNT_LO (i ++ [c]), Reg.key .DRY_CNT_HI (i ++ [c])]) s.dev d) ∧
      (s.dev.exists_ p = false → Dev.Keeps [.ports] [] s.dev d)) ∧
    (s.dev.ltEn p = true → s.Runs (.linkTrainingDone p) fun d => d.port p = { s.dev.port p with ltDone := true } ∧
      (∀ j, j ≠ p → d.port j = s.dev.port j) ∧ Dev.Keeps [.ports] [] s.dev d) ∧
    (s.dev.ltEn p = false → s.Runs (.linkTrainingDone p) fun d => Dev.Keeps [] [] s.dev d)

/-- For an Outbound pipe that is ON with no relay unit due and one client unit of two beats ago waiting, not bound to
a Thatch line port: when no selection of its port applies and the port's miss action is CLEAR, the pipe has room and
the port's line port is a route, the unit is taken and stands last among the units the pipe has still to push, with
its bytes, its port of egress and the due CCLK of R31. When the miss action is PROTECT under a coach without a policer
profile that may send, with a slot of its stage, a good counter below the hard limit and a route, and the frame is no
PTP message, the unit pushed holds the frame protected with the coach's next PN: the clear bytes before the SecTAG,
EtherType 88E5h, the low half of the PN, the length of the form, the ICV and FCS of what precedes them; decrypted, the
secure data is the frame's. The PN is used up, and the coach counts the unit and its octets. A coach that may not send
counts the unit and pushes nothing. When step 1 of R88 finds it bad, it is taken and counted in the counter of its
cause, and nothing is pushed. The lookups of the beat are then over in the pipe's Dray. (R31, R87, R88, R95, R96,
R120, R122, R130, R131, R209, R225, R303.) -/
def Obligations.OutboundPipeCarriesOrCounts : Prop :=
  ∀ (s : State) (k : Nat) (a : Arrival), s.Ready → k < 4 → s.dev.clk.run = true → s.dev.still = false → 2 ≤ s.dev.beat →
    s.dev.relayDue k = [] → (s.dev.domain (obDom k)).state = .on →
    s.dev.arrivalsOf (s.dev.beat - 2) (fun a => !isLine a.port && drayOf a.port == k && !a.taken && decide (2 ≤ s.dev.beat)) = [a] →
    let served := { s.dev.tbm with used := tputN s.dev.tbm.used (24 + k) 1 }
    let e : Dev := ({ s.dev with
      out := [], tbm := served,
      loft := { s.dev.loft with relayNext := tputN s.dev.loft.relayNext (4 + k) (s.dev.beat * 1200) } } : Dev).takeArrival a
    let u := parse a.bytes (e.clsPort a.port 11 0)
    let p := 32 + 8 * k + bits (s.dev.ctl a.port) 26 24
    (checkFrame a.len a.bytes = 0 → field a.bytes 12 2 ≠ 0x8808 → e.classifyUnit a.port u = (e, .miss, none) →
      bits (s.dev.ctl a.port) 30 29 = 1 → s.dev.boundLine a.port = none → s.dev.obRoute k p = true →
      tgetD s.dev.ports.units k 0 + 1 ≤ s.dev.pipeLimit.1 → tgetD s.dev.ports.bytes k 0 + a.len ≤ s.dev.pipeLimit.2 →
      s.Runs (.outboundProcess k []) fun d =>
      (∃ x : Pkt, tgetD d.loft.toPush k [] = tgetD s.dev.loft.toPush k [] ++ [x] ∧ x.ingress = a.port ∧ x.beat = a.beat ∧
        x.index = a.index ∧ x.egress = p ∧ x.coach = 0 ∧ x.tc = s.dev.unitTc a.port none u.pcp ∧ x.bytes = a.bytes ∧
        x.held = a.len ∧ x.due = (a.beat + a.lat - 1) * 1200 + a.offset) ∧
      d.ports.arrivals = s.dev.ports.arrivals.map (fun b => if b == a then { b with taken := true } else b) ∧
      tgetD d.ports.units k 0 = tgetD s.dev.ports.units k 0 + 1 ∧ tgetD d.ports.bytes k 0 = tgetD s.dev.ports.bytes k 0 + a.len ∧
      d.tbm = served ∧ Dev.Keeps [.ports, .loft, .tbm] [Reg.key .DRY_OB_PEAK [k]] s.dev d) ∧
    (let c := bits (s.dev.ctl a.port) 15 0
     let v := s.dev.co c
     let form := s.dev.tagForm c
     let long := a.len + overhead form
     checkFrame a.len a.bytes = 0 → field a.bytes 12 2 ≠ 0x8808 → e.classifyUnit a.port u = (e, .miss, none) →
      bits (s.dev.ctl a.port) 30 29 = 2 → s.dev.boundLine a.port = none → s.dev.obRoute k (s.dev.egrPort c) = true →
      s.dev.fld .CO_ADV [c] 27 16 = 0 → long ≤ 9216 → ptpAt a.bytes = none →
      tgetD s.dev.ports.units k 0 + 1 ≤ s.dev.pipeLimit.1 → tgetD s.dev.ports.bytes k 0 + long ≤ s.dev.pipeLimit.2 →
      (∀ sl, s.dev.canSend c = true → slotFor v v.stage = some sl → v.pnErr = [] → v.mirBad = false → v.lo < 65536 →
        pnOf v < s.dev.hardLim c → s.Runs (.outboundProcess k []) fun d =>
        (∃ x : Pkt, tgetD d.loft.toPush k [] = tgetD s.dev.loft.toPush k [] ++ [x] ∧ x.ingress = a.port ∧ x.beat = a.beat ∧
          x.index = a.index ∧ x.egress = s.dev.egrPort c ∧ x.coach = c ∧ x.tc = s.dev.unitTc a.port none u.pcp ∧
          x.due = (a.beat + a.lat - 1) * 1200 + a.offset ∧ x.bytes = s.dev.protect c (pnOf v) sl a.bytes ∧
          x.held = x.bytes.length ∧ (a.len = a.bytes.length → x.bytes.length = long) ∧
          (let body := a.bytes.take (a.bytes.length - 4)
           let m := x.bytes.take (x.bytes.length - 4)
           let off := 12 + if s.dev.vlanClear c = true then clearTags body else 0
           let n := clearPart (s.dev.conf c) (body.length - off)
           let iv := ivOf (s.dev.txSsci c) (pnOf v) sl.salt
           let aad := m.take (off + tagLen form + n)
           let ct := (m.drop (off + tagLen form + n)).take (body.length - off - n)
           x.bytes = m ++ fcsOf m ∧ m.take off = body.take off ∧ field m off 2 = 0x88E5 ∧
           field m (off + 4) 4 = pnOf v % 2 ^ 32 ∧ (m.drop (off + tagLen form)).take n = (body.drop off).take n ∧
           ctrXor sl.key iv ct = body.drop (off + n) ∧
           m.drop (off + tagLen form + n + ct.length) = gcmTag sl.key iv aad ct)) ∧
        pnOf (d.co c) = pnOf v + 1 ∧ (∀ j, j ≠ c → d.co j = s.dev.co j) ∧
        Dev.Wide s.dev d (.CST_WIDE, [c, 0]) (.CST_WIDE, [c, 1]) 1 ∧
        Dev.Wide s.dev d (.CST_WIDE, [c, 2]) (.CST_WIDE, [c, 3]) (s.dev.protect c (pnOf v) sl a.bytes).length ∧
        tgetD d.ports.units k 0 = tgetD s.dev.ports.units k 0 + 1 ∧ tgetD d.ports.bytes k 0 = tgetD s.dev.ports.bytes k 0 + long ∧
        Dev.Keeps [.ports, .loft, .tbm, .coach]
          (Reg.key .DRY_OB_PEAK [k] :: (List.range 4).map fun i => Reg.key .CST_WIDE [c, i]) s.dev d) ∧
      (s.dev.canSend c = false → s.Runs (.outboundProcess k []) fun d => d.loft.toPush = s.dev.loft.toPush ∧ d.coach = s.dev.coach ∧
        Dev.Counts s.dev d .CST_CNT [c, 0] 1 ∧
        Dev.Keeps [.ports, .loft, .tbm] [Reg.key .DRY_OB_PEAK [k], Reg.key .CST_CNT [c, 0]] s.dev d)) ∧
    (∀ w, checkFrame a.len a.bytes = w → w ≠ 0 → s.dev.exists_ a.port = true → s.Runs (.outboundProcess k []) fun d =>
      let i := [drayOf a.port, cntIx a.port, w]
      d.ports.arrivals = s.dev.ports.arrivals.map (fun b => if b == a then { b with taken := true } else b) ∧
      d.loft.toPush = s.dev.loft.toPush ∧ Dev.Wide s.dev d (.DRY_CNT_LO, i) (.DRY_CNT_HI, i) 1 ∧ d.tbm = served ∧
      Dev.Keeps [.ports, .loft, .tbm] [Reg.key .DRY_CNT_LO i, Reg.key .DRY_CNT_HI i] s.dev d)

/-- INBOUND_CIPHER_START of a good, admitted frame whose SecTAG names a coach that receives notes a verdict ceil(9.6 B
/ r) + 96 CCLK from now, and takes the unit; one without a place to go is counted in DROP_ROUTE with ROUTE_ERR and
enters no queue. FRAME_VERDICT of a verdict that is due and OK, with no learning event and nothing to relay, takes it
off the list, raises NEXT_PN of its slot past its PN, notes the verified stage, and counts the unit and its octets
under its coach. One whose tag fails, with no unit of it left, is counted in IN_TAG_FAIL alone. That a unit without a
place to go is counted at its cipher start, whatever its verdict, is log entry 64. (R85, R93, R139, R142, R143, R148,
R215, R236.) -/
def Obligations.InboundFramesAreVerifiedOnTime : Prop :=
  ∀ (s : State) (p t : Nat), s.Ready →
    let e := s.at t
    (∀ a i, e.clk.run = true → e.still = false → isLine p = true → p < 64 → e.thatchMode p = false → e.ibWorks (drayOf p) = true →
      e.nextStart p = some a → e.ibAdmitted a = true → checkFrame a.len a.bytes = 0 →
      let body := a.bytes.take (a.bytes.length - 4)
      let f := ((e.takeArrival a).ibAdd (drayOf a.port) 1 a.len).pmcEvent (4 + drayOf a.port) 2 (some a.port)
      let g := readTag body i
      let c := f.rxCoach (portNo a.port) g
      findTag body = some i → g.badEarly = false → f.coachReceives (portNo a.port) c g (field body 6 6) = true →
      s.Runs (.inboundCipherStart p t) fun d =>
      (∃ v : PendingVerdict, d.ports.verdicts = e.ports.verdicts ++ [v] ∧ v.port = a.port ∧ v.beat = a.beat ∧ v.index = a.index ∧
        v.coach = c ∧ v.pnLow = g.pn ∧ v.at_ = e.now + lineCclk (e.rate a.port) a.len + 96 ∧
        ((v.macCtl = true ∨ v.route = false) → Dev.Keeps [.ports, .loft] [Reg.key .DRY_IB_PEAK [drayOf a.port]] e d) ∧
        (v.macCtl = false → v.route = true →
          let r := [drayOf p, cntIx p, 10]
          d.loft = e.loft ∧ (e.exists_ p = true → Dev.Wide e d (.DRY_CNT_LO, r) (.DRY_CNT_HI, r) 1) ∧
          Dev.Sets e d .DRY_INT_STAT [drayOf p] 1 ∧ Dev.Keeps [.ports] [Reg.key .DRY_IB_PEAK [drayOf a.port], Reg.key .DRY_INT_STAT [drayOf p],
            Reg.key .DRY_CNT_LO r, Reg.key .DRY_CNT_HI r] e d)) ∧
      d.ports.arrivals = e.ports.arrivals.map (fun b => if b == a then { b with taken := true } else b)) ∧
    (∀ v sl, e.still = false → e.ports.verdicts.find? (fun v => v.port == p && decide (v.at_ ≤ e.now)) = some v → v.probe = false →
      slotFor (e.co v.coach) v.stage = some sl →
      let f : Dev := { e with ports := { e.ports with verdicts := e.ports.verdicts.filter (· != v) } }
      (f.verdictResult v = .ok → v.macCtl = false → (v.route = true ∨ v.relay = false ∧ v.learn = none) →
        s.Runs (.frameVerdict p t false) fun d => d.ports.verdicts = f.ports.verdicts ∧
        slotFor (d.co v.coach) v.stage = some { sl with nextPn := max sl.nextPn (v.pn + 1) } ∧
        (d.co v.coach).verified = some (match (e.co v.coach).verified with | some q => max q v.stage | none => v.stage) ∧
        (∀ j, j ≠ v.coach → d.co j = e.co j) ∧
        Dev.Wide e d (.CST_WIDE, [v.coach, 4]) (.CST_WIDE, [v.coach, 5]) 1 ∧
        Dev.Wide e d (.CST_WIDE, [v.coach, 6]) (.CST_WIDE, [v.coach, 7]) v.octets ∧
        Dev.Keeps [.ports, .coach] ((List.range 8).map fun i => Reg.key .CST_WIDE [v.coach, i]) e d) ∧
      (f.verdictResult v = .tagFail → v.probeReq = none → f.unitsFor (verdictKey v) = [] →
        s.Runs (.frameVerdict p t false) fun d => d.ports.verdicts = f.ports.verdicts ∧
        Dev.Counts e d .CST_CNT [v.coach, 6] 1 ∧ Dev.Keeps [.ports] [Reg.key .CST_CNT [v.coach, 6]] e d))

/-- When a superframe of line port n may start, SUPERFRAME_SEND moves the next start on by the time of 16,432 bytes.
When the coach may not send or AIS is forced, no verdict is due, no superframe is under way, no frame waits and none
is unfinished, what is sent has an all-zero payload and tag, it is counted as sent in TX_UNITS, TX_OCTETS and
AIS_SENT, and no PN is used. Before the CCLK of the next start, none starts. (R119, R157, R159, R176, R200, R209.) -/
def Obligations.SuperframesAreSentBackToBack : Prop :=
  ∀ (s : State) (n t : Nat) (err : Option PnErr), s.Ready →
    let e := s.at t
    let p := 32 + n
    let starts := txCclk (e.thatch n).txNext (e.rate p) 0 ≤ e.now
    n < 32 → e.clk.run = true → e.halt = false → e.still = false → (e.thatch n).txOn = true → e.en p = true → e.thatchMode p = true →
    e.domOn (serdesDom p) = true →
    (starts → s.Runs (.superframeSend n t err) fun d => (d.thatch n).txNext = (e.thatch n).txNext + 48 * sfBytes) ∧
    (¬ starts → s.Runs (.superframeSend n t err) fun d => (d.thatch n).txNext = (e.thatch n).txNext) ∧
    (starts → err = none → e.exists_ p = true → e.sendsAis n = true → (e.thatch n).txSf = none → (e.thatch n).txLeft = [] →
      (e.thatch n).txOwner = none → e.dueVerdicts = e →
      (∀ i, i < 8 → e.queue (8 * p + i) = []) → s.Runs (.superframeSend n t err) fun d =>
      (d.thatch n).txLast.length = sfBytes ∧ (d.thatch n).txLast.drop 32 = List.replicate 16400 0#8 ∧
      (readHdr (d.thatch n).txLast).ais = true ∧ (readHdr (d.thatch n).txLast).fits = true ∧
      (∀ j, j ≠ n → d.thatch j = e.thatch j) ∧ d.coach = e.coach ∧
      (let i := [drayOf p, cntIx p]
       Dev.Wide e d (.DRY_CNT_LO, i ++ [2]) (.DRY_CNT_HI, i ++ [2]) 1 ∧
       Dev.Wide e d (.DRY_CNT_LO, i ++ [3]) (.DRY_CNT_HI, i ++ [3]) sfBytes ∧ Dev.Counts e d .THP_CNT [n, 10] 1 ∧
       Dev.Keeps [.ports, .loft] [Reg.key .DRY_CNT_LO (i ++ [2]), Reg.key .DRY_CNT_HI (i ++ [2]), Reg.key .DRY_CNT_LO (i ++ [3]),
         Reg.key .DRY_CNT_HI (i ++ [3]), Reg.key .THP_CNT [n, 10]] e d))

/-- ALIGNER_POSITION at the expected position of an aligner in SYNC, on a port that assigns: with a FAW or a fitting
HCRC in a data block, the position becomes a unit with the next ordinal, the misses return to 0, and the next is
expected 2,054 positions on. Otherwise the position is void and counted as missed; the misses rise by one, and the
fourth in a row returns the aligner to HUNT. At any other position nothing changes. That the fourth miss is counted
like the others, and that positions in SYNC are units while LOF lasts, are log entries 54 and 56. (R105, R178, R180,
R200.) -/
def Obligations.AlignerKeepsOrLosesSync : Prop :=
  ∀ (s : State) (n t phi pos : Nat) (ctrl : Bool) (b : Bytes), s.Ready →
    let e := s.at t
    let p := 32 + n
    let x := e.thatch n
    let h := readHdr (b.take sfBytes)
    n < 32 → phi < 4 → e.clk.run = true → e.still = false → e.exists_ p = true → e.thatchMode p = true → e.phyDown n = false →
    x.align = .sync → e.assigns p = true → e.follows = false →
    (pos = x.expect → ctrl = false → (h.isFaw = true ∨ h.fits = true) → s.Runs (.alignerPosition n t phi pos ctrl b) fun d =>
      (d.thatch n).align = .sync ∧ (d.thatch n).misses = 0 ∧ (d.thatch n).expect = pos + 2054 ∧ (d.thatch n).ord = x.ord + 1 ∧
      (∃ a : Arrival, d.ports.arrivals = e.ports.arrivals ++ [a] ∧ a.port = p ∧ a.ord = x.ord ∧ a.void = false ∧
        a.bytes = b.take sfBytes ∧ a.beat = e.beat ∧ a.offset = e.clk.cclk ∧ a.index = (e.port p).count) ∧
      (∀ j, j ≠ n → d.thatch j = e.thatch j) ∧
      Dev.Keeps [.ports] ([0, 1].flatMap fun c => [Reg.key .DRY_CNT_LO [drayOf p, cntIx p, c], Reg.key .DRY_CNT_HI [drayOf p, cntIx p, c]]) e d) ∧
    (pos = x.expect → (ctrl = true ∨ h.isFaw = false ∧ h.fits = false) → s.Runs (.alignerPosition n t phi pos ctrl b) fun d =>
      (d.thatch n).align = (if x.misses + 1 = 4 then .hunt else .sync) ∧
      (d.thatch n).misses = (if x.misses + 1 = 4 then 0 else x.misses + 1) ∧ (d.thatch n).ord = x.ord + 1 ∧
      (∃ a : Arrival, d.ports.arrivals = e.ports.arrivals ++ [a] ∧ a.port = p ∧ a.ord = x.ord ∧ a.void = true) ∧
      Dev.Counts e d .THP_CNT [n, 1] 1 ∧ Dev.Keeps [.ports] [Reg.key .THP_CNT [n, 1]] e d) ∧
    (pos ≠ x.expect → s.Runs (.alignerPosition n t phi pos ctrl b) fun d => Dev.Keeps [] [] e d)

/-- SUPERFRAME_RECEIVE takes the next position whose cipher start has come. A void one fails its verdict 96 CCLK after
its start, and the parser waits for the next FDP. One that passes checks 1 to 5 of R181 has its verdict T_sf + 96 CCLK
after its start, and passes when its tag verifies. SUPERFRAME_VERDICT of a verdict that is due, with no carried frame
waiting for it: a pass raises NEXT_PN past its SEQ, keeps its NXT, RDI and CSF, and counts the unit and its octets;
one whose tag failed is counted in IN_TAG_FAIL, and one of a slot that a code error closed in IN_NO_SA. (R181, R182,
R186, R192, R195, R216, R230, R236.) -/
def Obligations.SuperframesAreVerifiedOnTime : Prop :=
  ∀ (s : State) (n t : Nat), s.Ready → n < 32 →
    let e := s.at t
    let p := 32 + n
    (∀ a, e.clk.run = true → e.still = false → e.thatchMode p = true → e.ibWorks (drayOf p) = true → e.nextStart p = some a →
      (a.void = true → ∀ err, s.Runs (.superframeReceive n t err) fun d =>
        (∃ v : PendingSf, d.ports.sfs = e.ports.sfs ++ [v] ∧ v.port = a.port ∧ v.ord = a.ord ∧ v.ok = false ∧ v.at_ = sfStart a + 96) ∧
        d.ports.arrivals = e.ports.arrivals.map (fun b => if b == a then { b with taken := true } else b) ∧
        (d.thatch n).rxItem = .fdp ∧ Dev.Keeps [.ports] [] e d) ∧
      (∀ sl, a.void = false →
        let f := if e.ibAdmitted a then (e.takeArrival a).ibAdd (drayOf p) 0 sfBytes else e.takeArrival a
        let h := readHdr a.bytes
        f.sfCheck n h = (.go, some sl) → s.Runs (.superframeReceive n t false) fun d =>
        ∃ l v, d.ports.sfs = l ++ [v] ∧ v.port = a.port ∧ v.ord = a.ord ∧ v.coach = h.coach ∧ v.stage = h.stage ∧ v.seq = h.seq ∧
          v.ok = (openSuperframe sl.1.key (ivOf (e.rxSsci h.coach) h.seq sl.1.salt) a.bytes).2.2 ∧
          v.at_ = sfStart a + tSf (e.rate a.port) + 96)) ∧
    (∀ v, e.still = false → e.ports.sfs.find? (fun v => v.port == p && decide (v.at_ ≤ e.now)) = some v → (e.thatch n).live = [] →
      (∀ sl, v.ok = true → v.probe = false → slotFor (e.co v.coach) v.stage = some sl → sl.rxBad = false → s.Runs (.superframeVerdict n t) fun d =>
        d.ports.sfs = e.ports.sfs.filter (· != v) ∧
        slotFor (d.co v.coach) v.stage = some { sl with nextPn := max sl.nextPn (v.seq + 1) } ∧ (d.co v.coach).lastNxt = v.nxt ∧
        (d.thatch n).rdiRx = bit v.alarm 14 ∧ (d.thatch n).csfRx = bit v.alarm 13 ∧ (∀ j, j ≠ v.coach → d.co j = e.co j) ∧
        Dev.Wide e d (.CST_WIDE, [v.coach, 4]) (.CST_WIDE, [v.coach, 5]) 1 ∧
        Dev.Wide e d (.CST_WIDE, [v.coach, 6]) (.CST_WIDE, [v.coach, 7]) v.octets ∧
        Dev.Keeps [.ports, .coach] ((List.range 8).map fun i => Reg.key .CST_WIDE [v.coach, i]) e d) ∧
      (v.ok = false → v.tagFail = true → (v.probe = true ∨ e.slotShut v.coach v.stage = false) →
        s.Runs (.superframeVerdict n t) fun d => d.ports.sfs = e.ports.sfs.filter (· != v) ∧
        Dev.Counts e d .CST_CNT [v.coach, 6] 1 ∧ Dev.Keeps [.ports] [Reg.key .CST_CNT [v.coach, 6]] e d) ∧
      ((v.ok = true ∨ v.tagFail = true) → v.probe = false → e.slotShut v.coach v.stage = true →
        s.Runs (.superframeVerdict n t) fun d => d.ports.sfs = e.ports.sfs.filter (· != v) ∧
        Dev.Counts e d .CST_CNT [v.coach, 4] 1 ∧ Dev.Keeps [.ports] [Reg.key .CST_CNT [v.coach, 4]] e d))

/-- LOFT_PUSH by pipe k takes the unit that the pipe pushes now, once what leaves the unit's queue in this CCLK has
left it. Admitted by R391 and not too long for every window, the unit enters its egress queue at its place by R387,
pushed in this CCLK, with the cells it takes; refused, it is counted in QDROP with its cause, and the queue holds its
gap marker. RELAY_REENCRYPT_START takes the first unit whose start has come off its list and out of the relay queue,
and puts it into its egress queue likewise; one that was dropped meanwhile is only taken off the list. Every other
queue stands. With nothing to push now, nothing changes. The order of the steps of one CCLK is log entry 66, and the
CCLK of a start that has passed is log entry 62. (R103, R384, R386, R387, R390, R391, R392, R395, R397, R420, R688.)
-/
def Obligations.PushesEnterTheQueueInOrder : Prop :=
  ∀ (s : State) (k t : Nat) (u : Pkt), s.Ready →
    let e := s.at t
    let q := queueOf u
    e.still = false →
    (e.pushChoice k = none → s.Runs (.loftPush k t) fun d => Dev.Keeps [] [] e d) ∧
    (let b := e.leaves u.egress
     e.pushChoice k = some u → b.pushChoice k = some u → u.pipe ≠ 16 → b.exists_ u.egress = true →
      let left := (tgetD b.loft.toPush k []).filter fun v => !sameUnit u v
      let f : Dev := { b with loft := { b.loft with
        toPush := tput b.loft.toPush [] k (if k < 4 ∧ isLine u.ingress = false then pushAfter (b.now + 1) left else left)
        lastPush := tset b.loft.lastPush q b.now } }
      f.oversize u.egress u.tc u.held = false →
      (f.admitCause q u.held = 0 → s.Runs (.loftPush k t) fun d =>
        d.queue q = placeUnit { u with cells := f.allocate u.held, pushAt := b.now } (b.queue q) ∧ (∀ j, j ≠ q → d.queue j = b.queue j) ∧
        d.loft.toPush = f.loft.toPush ∧ d.loft.tx = b.loft.tx ∧ d.loft.relay = b.loft.relay ∧ Dev.Keeps [.loft] [] b d) ∧
      (f.admitCause q u.held ≠ 0 → s.Runs (.loftPush k t) fun d =>
        d.queue q = (placeGap u (b.queue q)).1 ∧ (∀ j, j ≠ q → d.queue j = b.queue j) ∧ Dev.Counts b d .LOFT_QDROP [q] 1 ∧
        tgetD d.loft.cause q 0 = f.admitCause q u.held ∧ d.loft.toPush = f.loft.toPush ∧
        Dev.Keeps [.loft] [Reg.key .LOFT_QDROP [q], Reg.key .LOFT_INT_STAT, Reg.key .LOFT_QFLAG [q]] b d)) ∧
    (∀ rest, let v := e.dueVerdicts.relayEarly k
      tgetD v.loft.toPush (8 + k) [] = u :: rest → u.pushAt ≤ v.now →
      let g : Dev := { v with loft := { v.loft with toPush := tput v.loft.toPush [] (8 + k) rest } }
      ((g.relayQ k).find? (sameUnit u) = none → s.Runs (.relayReencryptStart k t) fun d => d.loft = g.loft ∧ Dev.Keeps [.loft] [] v d) ∧
      (∀ w, (g.relayQ k).find? (sameUnit u) = some w → u.held ≠ 0 → u.bytes ≠ [] →
        let b := (g.relayPop k u fun j => g.now + (min (256 * (j + 1)) w.held + 127) / 128).leaves u.egress
        let f : Dev := { b with loft := { b.loft with lastPush := tset b.loft.lastPush q b.now } }
        b.pushBlocked u = false → b.exists_ u.egress = true → f.oversize u.egress u.tc u.held = false → f.admitCause q u.held = 0 →
        s.Runs (.relayReencryptStart k t) fun d =>
        d.queue q = placeUnit { u with cells := f.allocate u.held, pushAt := b.now } (b.queue q) ∧
        (∀ j, j ≠ q → d.queue j = b.queue j) ∧ d.loft.relay = b.loft.relay ∧ d.loft.toPush = b.loft.toPush ∧
        Dev.Keeps [.loft] [] b d))

/-- GAP_MARKER_REMOVE, superframes under way handed over to its CCLK, takes a marker whose due CCLK has come from the
head of its queue, with any due marker behind it, and adds its count to QGAP; before its CCLK, nothing changes.
RELEASE_DROP, after the verdicts of its CCLK, on a slot whose port does not send, with one unit queued and due, takes
the unit out and counts it in DROP_PORT_DOWN; on a port that sends, nothing changes. Every other queue stands. The
order of the steps of one CCLK is log entry 66. (R107, R119, R385, R396, R397.) -/
def Obligations.MarkersAndReleaseDropsLeaveTheQueue : Prop :=
  ∀ (s : State) (t : Nat), s.Ready →
    let e := (s.at t).packAll
    let f := (s.at t).dueVerdicts
    (∀ q due i o ix n r, e.queue q = .gap due i o ix n :: r →
      (due ≤ e.now → (∀ due' i o ix n r', r = .gap due' i o ix n :: r' → e.now < due') → s.Runs (.gapMarkerRemove q t) fun d =>
        d.queue q = r ∧ (∀ j, j ≠ q → d.queue j = e.queue j) ∧
        Dev.Counts e d .LOFT_QGAP [q] n ∧ Dev.Keeps [.loft] [Reg.key .LOFT_QGAP [q]] e d) ∧
      (∀ due' i' o' ix' n' r', due ≤ e.now → r = .gap due' i' o' ix' n' :: r' → due' ≤ e.now →
        (∀ due i o ix n r'', r' = .gap due i o ix n :: r'' → e.now < due) → s.Runs (.gapMarkerRemove q t) fun d =>
        d.queue q = r' ∧ (∀ j, j ≠ q → d.queue j = e.queue j) ∧
        Dev.Counts e d .LOFT_QGAP [q] (n + n') ∧ Dev.Keeps [.loft] [Reg.key .LOFT_QGAP [q]] e d) ∧
      (e.now < due → s.Runs (.gapMarkerRemove q t) fun d => Dev.Keeps [] [] e d)) ∧
    (∀ p tc u, p < 64 → tc < 8 → f.clk.run = true → f.still = false → f.exists_ p = true →
      (¬ (f.en p = true ∧ (f.port p).linkUp = true) → f.queue (8 * p + tc) = [.unit u] → u.due ≤ f.now →
        (∀ i, i < 8 → i ≠ tc → f.queue (8 * p + i) = []) → s.Runs (.releaseDrop p t) fun d =>
        let i := [drayOf p, cntIx p, 13]
        d.queue (8 * p + tc) = [] ∧ (∀ j, j ≠ 8 * p + tc → d.queue j = f.queue j) ∧
        Dev.Wide f d (.DRY_CNT_LO, i) (.DRY_CNT_HI, i) 1 ∧
        Dev.Keeps [.loft] [Reg.key .DRY_CNT_LO i, Reg.key .DRY_CNT_HI i] f d) ∧
      (f.en p = true → (f.port p).linkUp = true → s.Runs (.releaseDrop p t) fun d => Dev.Keeps [] [] f d))

/-- TRANSMISSION_START, after the verdicts of its CCLK, on a free slot whose port sends, with no due marker at a head,
starts the unit that R388 chooses: it leaves its queue, is under way from this CCLK, the port may start its next one
after ceil(9.6 (B + 20) / r) CCLK, and TX_UNITS and TX_OCTETS count it. UNIT_TRANSMIT_COMPLETE ends a unit whose last
byte has been handed over. LOFT_UNDERRUN of a unit that has handed over every byte written, with more to come, ends it
with the stomped end of the bytes written, counts it in STOMP and shows it. That the bytes of a CCLK are counted whole
is log entry 14, and the order of the steps of one CCLK log entry 66. (R33, R34, R119, R385, R388, R397, R401, R402,
R403.) -/
def Obligations.UnitsStartEndAndUnderrun : Prop :=
  ∀ (s : State) (p t : Nat), s.Ready →
    let e := s.at t
    let f := e.dueVerdicts
    let i := [drayOf p, cntIx p]
    (∀ q u, f.clk.run = true → f.halt = false → p < 64 → f.sends p = true → f.thatchMode p = false → (f.port p).freeAt ≤ f.now →
      (∀ j due a o ix n r, j < 8 → f.queue (8 * p + j) = .gap due a o ix n :: r → f.now < due) → f.chosen p f.now = some (q, u) →
      u.ghost = false → u.actual = false → (u.planned = true → f.now ≤ u.due) →
      s.Runs (.transmissionStart p t) fun d => tget d.loft.tx p = some ⟨u, f.now, none⟩ ∧ d.queue q = (f.queue q).drop 1 ∧
        (∀ j, j ≠ q → d.queue j = f.queue j) ∧ (d.port p).freeAt = f.now + lineCclk (f.rate p) (u.held + 20) ∧
        (∀ j, j ≠ p → d.port j = f.port j) ∧ Dev.Wide f d (.DRY_CNT_LO, i ++ [2]) (.DRY_CNT_HI, i ++ [2]) 1 ∧
        Dev.Wide f d (.DRY_CNT_LO, i ++ [3]) (.DRY_CNT_HI, i ++ [3]) u.held ∧
        Dev.Keeps [.loft, .ports] ([2, 3].flatMap fun c => [Reg.key .DRY_CNT_LO (i ++ [c]), Reg.key .DRY_CNT_HI (i ++ [c])]) f d) ∧
    (∀ x, tget e.loft.tx p = some x → x.stomp = none →
      (x.start + lineCclk (e.rate p) x.pkt.held ≤ e.now → s.Runs (.unitTransmitComplete p t) fun d => tget d.loft.tx p = none ∧
        (∀ j, j ≠ p → tget d.loft.tx j = tget e.loft.tx j) ∧ Dev.Keeps [.loft] [] e d) ∧
      (e.now < x.start + lineCclk (e.rate p) x.pkt.held → s.Runs (.unitTransmitComplete p t) fun d => Dev.Keeps [] [] e d) ∧
      (let w := written x.pkt e.now
       w < x.pkt.held → w < handed (e.rate p) x.start e.now → s.Runs (.loftUnderrun p t) fun d =>
        tget d.loft.tx p = some { x with
          stomp := some (stompBytes ((x.pkt.bytes ++ List.replicate (w - x.pkt.bytes.length) 0#8).take w)) } ∧
        (∀ j, j ≠ p → tget d.loft.tx j = tget e.loft.tx j) ∧ Dev.Counts e d .LOFT_PORT_STOMP [p] 1 ∧
        Dev.Sets e d .LOFT_QFLAG [queueOf x.pkt] 1 ∧ Dev.Sets e d .LOFT_INT_STAT [] 2 ∧
        Dev.Keeps [.loft, .ports] [Reg.key .LOFT_PORT_STOMP [p], Reg.key .LOFT_QFLAG [queueOf x.pkt], Reg.key .LOFT_INT_STAT] e d))

/-- In a Dray that classifies, MIGRATION_STEP of an engine whose oldest step is to place its entry in slot s of line
i, with an operation of i's channel left, takes one operation and writes the line with the entry in the slot and its
other slots as they were; the step is then ready to flip, and no position changes state before the boundary. Every
other line and every other Dray stands. With no step under way and no overflow entry, or in a Dray that does not
classify, nothing changes. The next beat boundary, with no batch due: the position takes the state of its entry, which
leaves the overflow store with its step; of the bucket that the aging period visits, a LEARNED position that was seen
is idle and an idle one is empty; and the learning event of a key that the Dray holds nowhere, below the limit of its
port, makes a LEARNED overflow entry, seen, of its coach. That a command does what its rule's circumstances allow and
else nothing is log entry 3. (R310, R313, R323, R328, R331, R332, R352, R381, R686.) -/
def Obligations.MigrationWritesTheLineItPlanned : Prop :=
  ∀ (s : State) (k : Nat), s.Ready → k < 4 →
    let x := s.dev.dray k
    (∀ st rest id slot m mv, s.dev.clsOn k = true → s.dev.clk.run = true → x.steps = st :: rest → st.ready = false →
      st.flip = .place id slot m mv → 0 < s.dev.opsLeft (idChan k id) → s.Runs (.migrationStep k) fun d =>
      d.idAt k id = s.dev.placeLine st.entry.key st.entry.coach id slot (s.dev.idAt k id) ∧
      (∀ c a, lineKey c a ≠ lineKey (idChan k id) (idLine id) → d.lineAt c a = s.dev.lineAt c a) ∧
      d.opsUsed (idChan k id) = s.dev.opsUsed (idChan k id) + 1 ∧
      d.dray k = { x with steps := x.steps.map fun t => if t.idx = st.idx then { st with ready := true } else t } ∧
      (∀ j, j ≠ k → d.dray j = s.dev.dray j) ∧
      Dev.Keeps [.cls, .tbm] [Reg.key .TBM_CH_PEAK [idChan k id]] s.dev d) ∧
    ((s.dev.clsOn k = false ∨ s.dev.clk.run = false ∨ x.steps = [] ∧ x.ovf = []) →
      s.Runs (.migrationStep k) fun d => Dev.Keeps [] [] s.dev d) ∧
    (∀ i, s.Beats → (s.dev.domain (obDom k)).state = .on → s.dev.waitingTo s.next = [] →
      let p := s.dev.fld .CLS_AGE [] 9 0
      (∀ st e id slot m mv, x.steps = [st] → st.ready = true → st.flip = .place id slot m mv → tget x.ovf st.idx = some e → p = 0 →
        s.dev.ports.learn = [] → s.Runs (.beatBoundary i) fun d => posOf (d.dray k) id slot = stateFor e ∧
        tget (d.dray k).ovf st.idx = none ∧ (d.dray k).steps = []) ∧
      (∀ slot, slot < 4 → x.steps = [] → s.dev.ports.learn = [] → p ≠ 0 → s.next % p = 0 →
        let b := s.next / p % 2 ^ 20
        (posOf x b slot = 3 → s.Runs (.beatBoundary i) fun d => posOf (d.dray k) b slot = 2) ∧
        (posOf x b slot = 2 → s.Runs (.beatBoundary i) fun d => posOf (d.dray k) b slot = 0)) ∧
      (∀ ev j, x.steps = [] → p = 0 → s.dev.ports.learn = [ev] → ev.cport / 8 = k → s.dev.clsOn k = true →
        ovfHost x (.exact ev.key) = none → ovfLearned x (.exact ev.key) = none → s.dev.cachedSlot k ev.key = none →
        s.dev.rd .CLS_LCOUNT [ev.cport] < s.dev.fld .CLS_LIMIT [ev.cport] 22 0 → freeLearned x = some j →
        s.Runs (.beatBoundary i) fun d => tget (d.dray k).ovf j = some ⟨.exact ev.key, .learned, ev.coach, true, none⟩ ∧
          d.ports.learn = []))

/-- A failed line check, or an uncorrectable codeword, of an enabled channel is noted in TBM_CH_FAIL when it is the
channel's first, and reports F064 + c or F072 + c, which are fatal. A calibration read that is due, with an operation
left, ends its turn and notes the narrowest eye; an eye below 2 taps after one of 2 or more reports F088 + c.
CALIBRATION_ABANDON of one that fell due 64 beats ago counts it late. What the eye and the margin show is log entry
45. (R352, R362, R363, R368, R369, R376, R381, R552.) -/
def Obligations.LineFailuresAndCalibration : Prop :=
  ∀ (s : State) (c : Nat), s.Ready → c < 8 →
    (∀ l u, s.dev.chEn c = true → s.dev.hears ((if u = true then 72 else 64) + c) → s.Runs (.lineCheckFail c l u) fun d =>
      let src := (if u = true then 72 else 64) + c
      tgetD d.tbm.fail c 0 = (if tgetD s.dev.tbm.fail c 0 = 0 then (if u = true then 2 else 1) * 2 ^ 30 + l % 2 ^ 22
        else tgetD s.dev.tbm.fail c 0) ∧
      (∀ j, j ≠ c → tget d.tbm.fail j = tget s.dev.tbm.fail j) ∧ Dev.Reports s.dev d src ∧ d.halt = true ∧
      Dev.Keeps (.tbm :: fatalParts) (fatalKeys src) s.dev d) ∧
    (tgetD s.dev.tbm.calDue c 0 ≠ 0 → 0 < s.dev.opsLeft c →
      (∀ eye, (2 ≤ eye ∨ tgetD s.dev.tbm.margin c 0 < 2) → s.Runs (.calibrationRead c eye) fun d =>
        tgetD d.tbm.calDue c 0 = 0 ∧ tgetD d.tbm.margin c 0 = eye % 256 ∧ d.opsUsed c = s.dev.opsUsed c + 1 ∧
        Dev.Keeps [.tbm] [Reg.key .TBM_CH_PEAK [c]] s.dev d) ∧
      (∀ eye, eye < 2 → 2 ≤ tgetD s.dev.tbm.margin c 0 → s.dev.hears (88 + c) → s.Runs (.calibrationRead c eye) fun d =>
        tgetD d.tbm.calDue c 0 = 0 ∧ tgetD d.tbm.margin c 0 = eye ∧ d.opsUsed c = s.dev.opsUsed c + 1 ∧
        Dev.Reports s.dev d (88 + c) ∧
        Dev.Keeps (.tbm :: eventParts) (Reg.key .TBM_CH_PEAK [c] :: eventKeys (88 + c)) s.dev d)) ∧
    (tgetD s.dev.tbm.calDue c 0 ≠ 0 → tgetD s.dev.tbm.calDue c 0 - 1 + 64 ≤ s.dev.beat → s.Runs (.calibrationAbandon c) fun d =>
      tgetD d.tbm.calDue c 0 = 0 ∧ (∀ j, j ≠ c → tget d.tbm.calDue j = tget s.dev.tbm.calDue j) ∧
      Dev.Counts s.dev d .TBM_CH_CAL_LATE [c] 1 ∧ Dev.Sets s.dev d .TBM_INT_STAT [] 4 ∧
      Dev.Keeps [.tbm] [Reg.key .TBM_CH_CAL_LATE [c], Reg.key .TBM_INT_STAT] s.dev d)

/-- A host write of a word with staged fields only, in a running device that is SOLO or ACTIVE, replaces the open
batch's write of the word, or joins it as the last one while the batches hold fewer than 16,384 field writes, or else
sets OVF; the word itself stands. Before beat 0, or in any other pair state, the write is counted as discarded in
HST_CNT(2) and recorded as an access error. (R43, R44, R609, R637, R639, R644.) -/
def Obligations.StagedWritesJoinTheOpenBatch : Prop :=
  ∀ (s : State), s.Ready → s.dev.host.d3hot = false →
    (∀ off val k r ix, s.dev.resolve (dwordOf off) = some (k, r, ix) → r.row.rw = 0 → r.row.w1c = 0 → r.row.rws ≠ 0 →
      (∀ a b v, Dev.writeActs a b r ix v = b) →
      let e := Entry.word k (BitVec.ofNat 32 (val.toNat &&& r.row.rws))
      let leads := s.dev.clk.run = true ∧ (s.dev.pair.state = .solo ∨ s.dev.pair.state = .active)
      let same := ∃ x ∈ s.dev.batch.open_, entrySame e x = true
      (leads → same → s.Runs (.rwsWrite off val) fun d =>
        d.batch = { s.dev.batch with open_ := s.dev.batch.open_.map fun x => if entrySame e x then e else x } ∧
        Dev.Keeps [.batch, .pair, .offset] [] s.dev d) ∧
      (leads → ¬ same → s.dev.storeSize < 16384 → s.Runs (.rwsWrite off val) fun d =>
        d.batch = { s.dev.batch with open_ := s.dev.batch.open_ ++ [e] } ∧ Dev.Keeps [.batch, .pair, .offset] [] s.dev d) ∧
      (leads → ¬ same → 16384 ≤ s.dev.storeSize → s.Runs (.rwsWrite off val) fun d =>
        d.batch = { s.dev.batch with ovf := true } ∧ Dev.Keeps [.batch, .offset] [] s.dev d) ∧
      (¬ leads → s.Runs (.rwsWrite off val) fun d => Dev.Counts s.dev d .HST_CNT [2] 1 ∧ Dev.Sets s.dev d .HST_INT_STAT [] 1 ∧
        d.flag .HST_ACC_ERR [] 31 = true ∧
        Dev.Keeps [.host, .offset] [Reg.key .HST_CNT [2], Reg.key .HST_INT_STAT, Reg.key .HST_ACC_ERR] s.dev d))

/-- A write of 1 to BEAT_BATCH_CTL.DISCARD, by BATCH_DISCARD or by any write of the register that sets it, with SEAL
set or not, leaves the open batch empty and OPEN_OVF 0. No batch is sealed, the last result and sequence number stand,
and so does everything else but the clock, and what an ACTIVE device forwards to its partner. (R50.) -/
def Obligations.DiscardEmptiesTheOpenBatch : Prop :=
  ∀ (s : State) (c : Instr), s.Ready → s.dev.host.d3hot = false →
    (c = .batchDiscard ∨ ∃ off val, dwordOf off = Reg.key .BEAT_BATCH_CTL [] ∧ val.toNat.testBit 2 = true ∧ c = .registerWrite (.bar0 off) [val] [15]) →
    s.Runs c fun d => d.batch = { s.dev.batch with open_ := [], ovf := false } ∧ Dev.Keeps [.batch, .pair, .offset] [] s.dev d

/-- BATCH_SEAL asks for beat BEAT_APPLY with MODE 1, or the lead from now with MODE 0. An accepted batch leaves the
open batch empty and stands last among the sealed ones, with the next SEQ mod 256 and its apply-beat; a refused one
records its result and shows REJECTED; after LATE, FULL and HORIZON it stays open, otherwise it is discarded. The
checks go in R45's order: readiness, overflow, values, the lead, the horizon, room. (R38, R45, R46, R48, R49.) -/
def Obligations.SealTakesOrRefusesTheBatch : Prop :=
  ∀ (s : State) (mode : Bool), s.Ready → s.dev.host.d3hot = false →
    let e := s.served
    let a := e.sealBeat mode
    let m := if s.dev.pair.state = .solo then 2 else 3
    let leads := s.dev.clk.run = true ∧ (s.dev.pair.state = .solo ∨ s.dev.pair.state = .active)
    let r : SealResult := if ¬ leads then .notReady else if s.dev.batch.ovf = true then .overflow
      else if e.valuesOk s.dev.batch.open_ a = false then .value else if e.latOk s.dev.batch.open_ a = false then .latDec
      else if a < s.dev.beat + m then .late else if s.dev.beat + 16777216 < a then .horizon
      else if 8 ≤ s.dev.batch.sealed.length then .full else .accepted
    (r = .accepted → s.Runs (.batchSeal mode) fun d => d.batch.open_ = [] ∧ d.batch.ovf = false ∧
      d.batch.sealed = s.dev.batch.sealed ++ [⟨(s.dev.batch.lastSeq + 1) % 256, a, s.dev.batch.open_⟩] ∧
      d.batch.lastSeq = (s.dev.batch.lastSeq + 1) % 256 ∧ d.batch.lastRes = .accepted ∧ d.batch.lastBeat = a ∧
      Dev.Keeps [.batch, .pair, .offset] [] s.dev d) ∧
    (r ≠ .accepted → s.Runs (.batchSeal mode) fun d => d.batch.lastRes = r ∧ d.batch.sealed = s.dev.batch.sealed ∧
      d.batch.lastSeq = s.dev.batch.lastSeq ∧
      d.batch.open_ = (if r = .late ∨ r = .horizon ∨ r = .full then s.dev.batch.open_ else []) ∧
      Dev.Sets s.dev d .BEAT_INT_STAT [] 4 ∧ Dev.Keeps [.batch, .offset] [Reg.key .BEAT_INT_STAT] s.dev d)

/-- A host write with all byte enables, of a word without a write action of its own, stores the RW fields of the
value, brought into range where R377 or R627 says so, clears the W1C bits written 1 unless the device set them in the
same CCLK, and keeps the word's other bits and every other word; staged fields join the open batch or are discarded,
and a write that takes WHIP_OUT's ball away may report F186. A write of 1 to HST_ACC_ERR.VALID clears the error
record. A write with a byte enable clear stores nothing and is counted in HST_CNT(1); one to an unoccupied offset
stores nothing, is counted in HST_CNT(0) and reports F152. What counts as the same CCLK is log entry 11, and that byte
enables are tested first is log entry 61. (R13, R14, R17, R377, R572, R627, R631, R638, R644, R655.) -/
def Obligations.HostWritesStoreTheFieldsTheyReach : Prop :=
  ∀ (s : State) (off : Nat) (val : Word), s.Ready → s.dev.host.d3hot = false →
    (∀ k r ix, s.dev.resolve (dwordOf off) = some (k, r, ix) → ¬ pmcKey k → r ≠ .PST_SRC_STAT →
      (∀ a b v, Dev.writeActs a b r ix v = b) →
      let w := if r.row.rw = 0 then wordAt s.dev.words k
        else mergeBits (wordAt s.dev.words k) r.row.rw (clampWrite r val.toNat &&& r.row.rw)
      let m := val.toNat &&& r.row.w1c &&& (0xFFFFFFFF ^^^ tgetD s.dev.set1c k 0)
      s.Runs (.registerWrite (.bar0 off) [val] [15]) fun d => wordAt d.words k = (if m = 0 then w else mergeBits w m 0) ∧
        (r.row.rws = 0 → r ≠ .WHP_CFG → Dev.Keeps [.offset] [k] s.dev d) ∧
        (r = .WHP_CFG → (d.src 186).cond = d.outLost ∧ Dev.Keeps (.offset :: eventParts) (k :: eventKeys 186) s.dev d) ∧
        Dev.Keeps ([.offset, .batch, .host] ++ eventParts)
          ([k, Reg.key .HST_CNT [2], Reg.key .HST_INT_STAT, Reg.key .HST_ACC_ERR] ++ eventKeys 186) s.dev d) ∧
    (∀ k, s.dev.resolve (dwordOf off) = some (k, .HST_ACC_ERR, []) → bit val.toNat 31 = true →
      bit (tgetD s.dev.set1c k 0) 31 = false → s.Runs (.registerWrite (.bar0 off) [val] [15]) fun d => d.flag .HST_ACC_ERR [] 31 = false ∧
      d.host.accMore = false ∧ d.host.accCause = 0 ∧ d.host.accOff = 0 ∧ Dev.Keeps [.host, .offset] [k] s.dev d) ∧
    (∀ be, be ≠ 15 → s.Runs (.registerWrite (.bar0 off) [val] [be]) fun d => Dev.Counts s.dev d .HST_CNT [1] 1 ∧
      Dev.Sets s.dev d .HST_INT_STAT [] 1 ∧ d.flag .HST_ACC_ERR [] 31 = true ∧
      Dev.Keeps [.host, .offset] [Reg.key .HST_CNT [1], Reg.key .HST_INT_STAT, Reg.key .HST_ACC_ERR] s.dev d) ∧
    (s.dev.resolve (dwordOf off) = none → s.dev.hears 152 → s.Runs (.registerWrite (.bar0 off) [val] [15]) fun d =>
      Dev.Counts s.dev d .HST_CNT [0] 1 ∧ Dev.Sets s.dev d .HST_INT_STAT [] 1 ∧ d.flag .HST_ACC_ERR [] 31 = true ∧
      Dev.Reports s.dev d 152 ∧
      Dev.Keeps ([.host, .offset] ++ eventParts) ([Reg.key .HST_CNT [0], Reg.key .HST_INT_STAT, Reg.key .HST_ACC_ERR] ++ eventKeys 152)
        s.dev d)

/-- A host read hands out the value of its word as it stands in its CCLK, superframes under way handed over up to the
CCLK before; without one the read finds the device as it is. A read of a word with RC fields returns the value without
what was counted in the same CCLK, and leaves exactly that in the fields; no other word changes. A read of a LO word
latches the HI word as it stands, and a read of a latched word returns the latch and ends it. A read of an unoccupied
offset returns zero, is counted in HST_CNT(0), and reports F152. What counts as an event of the same CCLK is the
model's choice, log entry 11; when the model hands a superframe's bytes over is log entry 65. (R15, R17, R174, R632,
R634, R644.) -/
def Obligations.HostReadsReturnAndClear : Prop :=
  ∀ (s : State) (off : Nat), s.Ready → s.dev.host.d3hot = false →
    let e := s.asked
    (∀ k r ix, e.resolve (dwordOf off) = some (k, r, ix) → ¬ pmcKey k → r.row.rc ≠ 0 → hiWord r ix = none →
      tget e.host.latch k = none → s.Runs (.clearingRead ⟨.bar0 off, [15]⟩) fun d =>
      let a := tgetD e.addRc k (0, 0)
      .rdata (dwordOf off) (BitVec.ofNat 32 (e.regValue r ix - a.2)) ∈ d.out ∧
      wordAt d.words k = mergeBits (wordAt e.words k) r.row.rc (min a.1 r.row.rc) ∧ Dev.Keeps [.offset] [k] e d) ∧
    (∀ k r ix h hx, e.resolve (dwordOf off) = some (k, r, ix) → r.row.rc = 0 → hiWord r ix = some (h, hx) →
      tget e.host.latch k = none → s.Runs (.coherentLoRead ⟨.bar0 off, [15]⟩) fun d =>
      .rdata (dwordOf off) (BitVec.ofNat 32 (e.regValue r ix)) ∈ d.out ∧
      tget d.host.latch (h.key hx) = some (e.regValue h hx) ∧
      (∀ j, j ≠ k → j ≠ h.key hx → tget d.host.latch j = tget e.host.latch j) ∧
      Dev.Keeps [.host, .offset] [] e d) ∧
    (∀ k r ix v, e.resolve (dwordOf off) = some (k, r, ix) → r.row.rc = 0 → hiWord r ix = none → tget e.host.latch k = some v →
      s.Runs (.coherentLoRead ⟨.bar0 off, [15]⟩) fun d => .rdata (dwordOf off) (BitVec.ofNat 32 v) ∈ d.out ∧ tget d.host.latch k = none ∧
      Dev.Keeps [.host, .offset] [] e d) ∧
    (e.resolve (dwordOf off) = none → s.dev.hears 152 → s.Runs (.unoccupiedRead ⟨.bar0 off, [15]⟩) fun d =>
      .rdata (dwordOf off) 0 ∈ d.out ∧ Dev.Counts e d .HST_CNT [0] 1 ∧ Dev.Sets e d .HST_INT_STAT [] 1 ∧
      d.flag .HST_ACC_ERR [] 31 = true ∧ Dev.Reports e d 152 ∧
      Dev.Keeps ([.host, .offset] ++ eventParts) ([Reg.key .HST_CNT [0], Reg.key .HST_INT_STAT, Reg.key .HST_ACC_ERR] ++ eventKeys 152)
        e d) ∧
    ((∀ n, n < 32 → (s.dev.thatch n).txSf = none) → Dev.Keeps [] [] s.dev e)

/-- A write of 1 to PEND of a source clears PEND, leaves the other bits of its word and every other source as they
are, and ends the source's hold on ERR_N. For a source of kind C whose condition holds the write is ignored, and PEND
stands as it is; so it does when an event set PEND in the same CCLK. (R559.) -/
def Obligations.PendIsClearedButNotWhileHeld : Prop :=
  ∀ (s : State) (n : Nat), s.Ready → s.dev.host.d3hot = false → n < 190 →
    let held := (srcCond n = true ∧ (s.dev.src n).cond = true) ∨ bit (tgetD s.dev.set1c (Reg.key .PST_SRC_STAT [n]) 0) 31 = true
    (¬ held → s.Runs (.pendClear n) fun d => d.flag .PST_SRC_STAT [n] 31 = false ∧
      (∀ i, i < 31 → d.flag .PST_SRC_STAT [n] i = s.dev.flag .PST_SRC_STAT [n] i) ∧
      d.src n = { s.dev.src n with errh := false } ∧ (∀ j, j ≠ n → d.src j = s.dev.src j) ∧
      Dev.Keeps [.pst, .offset] [Reg.key .PST_SRC_STAT [n]] s.dev d) ∧
    (held → s.Runs (.pendClear n) fun d => d.flag .PST_SRC_STAT [n] 31 = s.dev.flag .PST_SRC_STAT [n] 31 ∧
      Dev.Keeps [.offset] [] s.dev d)

/-- A corrected or contained event, injected or reported by a block, makes its source pending and raises its count by
one, with the severity of R552, or for an injection the one written; of a fatal one the device also halts with ERR_N
and ALERT_N low. A condition that rises counts one event and shows; one that ends shows no longer, PEND standing. A
reserved source, one above 189, or severity 3, does nothing. ALERT_ACK raises ALERT_N unless the device had a fatal
event or an ALERT reaction came in the same CCLK. (R552, R554, R555, R557, R560, R561, R564, R566.) -/
def Obligations.FaultsAreInjectedAndReported : Prop :=
  ∀ (s : State) (n : Nat), s.Ready → n < 256 →
    let acked := tgetD s.dev.set1c (Reg.key .PST_ALERT) 0 ≠ 1 ∧ s.dev.pst.fatal = false
    (s.dev.host.d3hot = false →
      (acked → s.Runs .alertAck fun d => d.pst.alert = false ∧ d.alertLow = false ∧ d.pst.src = s.dev.pst.src ∧
        Dev.Keeps [.pst, .offset] [] s.dev d) ∧
      (¬ acked → s.Runs .alertAck fun d => Dev.Keeps [.offset] [] s.dev d)) ∧
    (srcReserved n = false → s.dev.hears n → s.dev.host.d3hot = false →
      (∀ v, v ≤ 1 → s.Runs (.faultInject n v) fun d => Dev.Reports s.dev d n ∧ (d.src n).lastSev = v ∧
        (∀ j, j ≠ n → j ≠ 186 → d.src j = s.dev.src j) ∧ Dev.Keeps (.offset :: eventParts) (eventKeys n) s.dev d) ∧
      (s.Runs (.faultInject n 2) fun d => Dev.Reports s.dev d n ∧ (d.src n).lastSev = 2 ∧ d.halt = true ∧ d.errLow = true ∧
        d.alertLow = true ∧ Dev.Keeps (.offset :: fatalParts) (fatalKeys n) s.dev d)) ∧
    (∀ v, (srcReserved n = true ∨ v = 3) → s.dev.host.d3hot = false → s.Runs (.faultInject n v) fun d =>
      Dev.Keeps [.offset] [] s.dev d) ∧
    (∀ v b, srcReserved n = false → srcCond n = false → s.dev.hears n → n ≠ 150 → n ≠ 151 →
      (srcSeverity n v ≠ 2 → s.Runs (.faultEvent n v 1 b) fun d => Dev.Reports s.dev d n ∧ (d.src n).lastSev = srcSeverity n v ∧
        Dev.Keeps eventParts (eventKeys n) s.dev d) ∧
      (srcSeverity n v = 2 → s.Runs (.faultEvent n v 1 b) fun d => Dev.Reports s.dev d n ∧ (d.src n).lastSev = 2 ∧
        d.halt = true ∧ d.errLow = true ∧ d.alertLow = true ∧ Dev.Keeps fatalParts (fatalKeys n) s.dev d)) ∧
    (∀ v m, srcCond n = true → n ≠ 186 → srcFatal n = false →
      ((s.dev.src n).cond = false → s.dev.hears n → s.Runs (.faultEvent n v m (.is true)) fun d => Dev.Reports s.dev d n ∧
        (d.src n).cond = true ∧ Dev.Keeps eventParts (eventKeys n) s.dev d) ∧
      ((s.dev.src n).cond = true → s.Runs (.faultEvent n v m (.is true)) fun d => Dev.Keeps [] [] s.dev d) ∧
      (s.Runs (.faultEvent n v m (.is false)) fun d => (d.src n).cond = false ∧ Dev.Keeps [.pst] [] s.dev d))

/-- At a beat boundary with no chip reset under way, when a BLOCK reaction asked for source s in an earlier CCLK,
BLOCK_RESET takes the request and resets its unit: the ports of a Dray's client or line SerDes lose all they presented
and their training, by which the boundaries sample their links; a Ridge lane that is not off searches; the PCI Express
core starts anew. A window that opened W beats ago closes: WIN_CNT reads 0, and SEVERE is 0 in counting mode. Without
such a request, at another CCLK, with a chip reset under way, or while the window is open, nothing changes. That the
boundary is the whole of CCLK 0 is the model's choice, log entry 46. (R106, R538, R555, R562, R563, R579, R630.) -/
def Obligations.BlocksAreResetAndWindowsClose : Prop :=
  ∀ (s : State) (n : Nat), s.Ready →
    let due := s.dev.clk.cclk = 0 ∧ s.dev.pst.chipReq = none ∧ ∃ e ∈ s.dev.pst.blockReq, e.1 = n ∧ e.2 < s.dev.clk.ticks
    let taken := fun (d : Dev) => ∀ e ∈ d.pst.blockReq, e.1 = n → s.dev.clk.ticks ≤ e.2
    (due →
      (∀ k, k < 4 → (n = 48 + k ∨ n = 52 + k) → s.Runs (.blockReset n) fun d => taken d ∧
        (∀ p, p < 64 → serdesDom p = (if n = 48 + k then 13 + k else 17 + k) → d.port p = { s.dev.port p with
          pcs := false, fec := false, sig := false, lanes := [], ltDone := false, phNow := 0, phPrev := 0, phUse := 0 }) ∧
        (∀ p, serdesDom p ≠ (if n = 48 + k then 13 + k else 17 + k) → d.port p = s.dev.port p) ∧
        Dev.Keeps [.pst, .ports] [] s.dev d) ∧
      (∀ j, j < 16 → n = 134 + j → (s.dev.lane j).state ≠ .off → s.dev.hears n → s.Runs (.blockReset n) fun d =>
        (d.lane j).state = .search ∧ (∀ i, i ≠ j → d.lane i = s.dev.lane i) ∧
        ((s.dev.lane j).state = .locked → d.ridge.linkUp = false ∧ Dev.Counts s.dev d .RDG_LANE_CNT [j, 4] 1 ∧
          Dev.Reports s.dev d (134 + j))) ∧
      (n = 150 → s.Runs (.blockReset n) fun d => taken d ∧ d.host.up = false ∧ d.host.msixEn = false ∧
        d.rd .HST_APER_SEL [0] = 0 ∧ d.rd .HST_INT_EN = 0)) ∧
    (¬ due → s.Runs (.blockReset n) fun d => Dev.Keeps [] [] s.dev d) ∧
    let x := s.dev.src n
    let closes := x.open_ = true ∧ x.winStart + s.dev.fld .PST_SRC_WIN [n] 19 0 ≤ s.dev.beat
    (closes → s.Runs (.faultWindowClose n) fun d => d.src n = { x with
        open_ := false, winCnt := 0, severe := if s.dev.flag .PST_CFG [] 0 = true then x.severe else false } ∧
      (∀ j, j ≠ n → d.src j = s.dev.src j) ∧ Dev.Keeps [.pst] [] s.dev d) ∧
    (¬ closes → s.Runs (.faultWindowClose n) fun d => Dev.Keeps [] [] s.dev d)

/-- MSIX_UNMASK of one of the 64 vectors clears its mask bit and nothing else. When bus mastering and MSI-X are
enabled and the function mask is 0, a pending vector sends one message if C_v still holds and none otherwise, and its
pending bit clears. (R635, R636, R657.) -/
def Obligations.UnmaskedVectorsSend : Prop :=
  ∀ (s : State) (v : Nat), s.Ready → s.dev.host.d3hot = false → v < 64 →
    (s.Runs (.msixUnmask v) fun d => d.flag .MSIX_CTRL [v] 0 = false ∧ Dev.Keeps [.offset] [Reg.key .MSIX_CTRL [v]] s.dev d) ∧
    (v < 52 → s.dev.host.bme = true → s.dev.host.msixEn = true → s.dev.host.funcMask = false → bit s.dev.host.pend v = true →
      s.Runs (.msixUnmask v) fun d => bit d.host.pend v = false ∧ (.msix v ∈ d.out ↔ s.dev.vecHolds v = true))

/-- Once stage CLOCK has ended, PCIE_LINK_CHANGE notes the link, its speed and width, bus mastering and the MSI-X
enables; before it, nothing. PERST_RESET and FUNCTION_LEVEL_RESET take the link and the enables down, end D3hot, and
return the MSI-X table, HST_APER_SEL and HST_INT_EN to their reset values; every other word and block stands.
PCIE_D3HOT puts the function in D3hot and changes nothing else; a host access to BAR0 then changes nothing, and a
configuration write of power state D0 ends it. A configuration read before stage CLOCK has ended is answered with
retry, and one of the IDs after it with 3200h and 1F4Eh. That both resets take the link down is the model's reading,
log entry 15. (R628, R629, R630, R653.) -/
def Obligations.PcieFunctionComesAndGoes : Prop :=
  ∀ s : State, s.Ready →
    (∀ up sp w bm me fm, s.dev.boot.clockEnd = true → s.Runs (.pcieLinkChange up sp w bm me fm) fun d => Dev.Keeps [] [] { s.dev with
      host := { s.dev.host with up := up, speed := sp % 8, width := w % 16, bme := bm, msixEn := me, funcMask := fm } } d) ∧
    (∀ up sp w bm me fm, s.dev.boot.clockEnd = false → s.Runs (.pcieLinkChange up sp w bm me fm) fun d => Dev.Keeps [] [] s.dev d) ∧
    (∀ c, (c = .perstReset ∨ c = .functionLevelReset) → s.Runs c fun d =>
      let gone := (List.range 0x400).map (0x478000 + ·) ++ [0x470020, 0x470024, 0x470008]
      (∀ k ∈ gone, wordAt d.words k = keyRst k) ∧ d.host.up = false ∧ d.host.bme = false ∧ d.host.msixEn = false ∧
      d.host.d3hot = false ∧ d.host.pend = 0 ∧ Dev.Keeps [.host] gone s.dev d) ∧
    (s.Runs .pcieD3hot fun d => Dev.Keeps [] [] { s.dev with host := { s.dev.host with d3hot := true } } d) ∧
    (s.dev.host.d3hot = true → ∀ off val be, s.Runs (.registerWrite (.bar0 off) val be) fun d => Dev.Keeps [] [] s.dev d) ∧
    (∀ v, s.dev.boot.clockEnd = true → v % 4 = 0 → s.Runs (.registerWrite (.cfg .power) [BitVec.ofNat 32 v] [15]) fun d =>
      Dev.Keeps [] [] { s.dev with host := { s.dev.host with d3hot := false } } d) ∧
    (∀ i be, s.dev.boot.clockEnd = false → s.Runs (.clearingRead ⟨.cfg i, [be]⟩) fun d => .cfgRetry ∈ d.out ∧ Dev.Keeps [] [] s.dev d) ∧
    (s.dev.boot.clockEnd = true → s.Runs (.clearingRead ⟨.cfg .ids, [15]⟩) fun d => .cfg 0x32001F4E ∈ d.out ∧ Dev.Keeps [] [] s.dev d)

/-- WHIP_FIRE, an edge of WHIP_IN after 50 ns of low with PIN enabled, a time base at its armed target with TIME
enabled, and BEAT_COUNT at WHP_BEAT with BEAT enabled raise a trigger with its SRC bit: in SOLO and FENCED a Whip for
the next beat; in ACTIVE one for the beat after it, which the boundary record carries; in STANDBY and SYNCING PIN and
REG ask the active, and TIME and BEAT are not evaluated. WHIP_TIME_ARM stores its word, a TIME trigger ends the
arming, and WHIP_OUT falls at CCLK 600. At the boundary of its beat a Whip latches: SEQ rises, the record names the
beat, and FULL and WHIP show; with HOLD set and a record held it is counted as missed with F099 instead, and the
record stands. (R567, R568, R570, R571, R572, R573, R589.) -/
def Obligations.WhipsAreRaisedAndFall : Prop :=
  ∀ s : State, s.Ready →
    let raises := fun (a d : Dev) (i : Nat) =>
      ((a.pair.state = .solo ∨ a.pair.state = .fenced) → d.pair = a.pair ∧
        d.whip = { a.whip with due := a.whip.due ++ [⟨a.beat + 1, a.beat, 2 ^ i, 0xFFFF⟩] }) ∧
      (a.pair.state = .active → d.whip = { a.whip with due := a.whip.due ++ [⟨a.beat + 2, a.beat, 2 ^ i, 0xFFFF⟩] } ∧
        ∃ m b, d.pair = { a.pair with whipRec := some (m, b) } ∧ bit m i = true) ∧
      ((a.pair.state = .standby ∨ a.pair.state = .syncing) → d.whip = a.whip ∧ d.pair = { a.pair with whipReq := true })
    let evaluates := s.dev.pair.state ≠ .standby ∧ s.dev.pair.state ≠ .syncing ∧ s.dev.clk.run = true
    (s.dev.host.d3hot = false →
      (s.Runs .whipFire fun d => raises s.dev d 1 ∧ Dev.Keeps [.whip, .pair, .offset] [] s.dev d) ∧
      (∀ v, s.Runs (.whipTimeArm v) fun d => d.rd .WHP_TM_CFG = mergeBits (s.dev.rd .WHP_TM_CFG) 0xB000FFFF v.toNat ∧
        Dev.Keeps [.offset] [Reg.key .WHP_TM_CFG] s.dev d)) ∧
    (∀ low t, 50 ≤ low → s.dev.flag .WHP_CFG [] 0 = true → s.Runs (.whipInEdge low t) fun d => raises (s.at t) d 0 ∧
      Dev.Keeps [.whip, .pair] [] (s.at t) d) ∧
    (∀ low t, (low < 50 ∨ s.dev.flag .WHP_CFG [] 0 = false) → s.Runs (.whipInEdge low t) fun d => Dev.Keeps [] [] (s.at t) d) ∧
    (evaluates → s.dev.flag .WHP_CFG [] 3 = true → s.dev.flag .WHP_TM_CFG [] 31 = true →
      s.dev.whipTarget ≤ tbValue (s.dev.tb (s.dev.fld .WHP_TM_CFG [] 29 28)) s.dev.now → s.Runs .whipTimeTrigger fun d =>
      raises s.dev d 3 ∧ d.flag .WHP_TM_CFG [] 31 = false ∧ Dev.Keeps [.whip, .pair] [Reg.key .WHP_TM_CFG] s.dev d) ∧
    (evaluates → s.dev.flag .WHP_CFG [] 4 = true → s.dev.beat = s.dev.rd .WHP_BEAT_LO + s.dev.rd .WHP_BEAT_HI * 2 ^ 32 →
      (∀ w ∈ s.dev.whip.due, ¬ (w.src = 16 ∧ w.trig = s.dev.beat)) → s.Runs .whipBeatTrigger fun d => raises s.dev d 4 ∧
      Dev.Keeps [.whip, .pair] [] s.dev d) ∧
    (¬ evaluates → ∀ c, (c = .whipTimeTrigger ∨ c = .whipBeatTrigger) → s.Runs c fun d => Dev.Keeps [] [] s.dev d) ∧
    (∀ i, s.Beats → (∃ w ∈ s.dev.whip.due, w.due = s.next) →
      let held := s.dev.flag .WHP_CFG [] 31 = true ∧ s.dev.flag .WHP_STAT [] 31 = true
      (¬ held → s.Runs (.beatBoundary i) fun d => d.whip.seq = (s.dev.whip.seq + 1) % 2 ^ 16 ∧ d.flag .WHP_STAT [] 31 = true ∧
        d.flag .WHP_INT_STAT [] 0 = true ∧ (d.whip.words.take 2).map BitVec.toNat = [s.next / 2 ^ 32 % 2 ^ 32, s.next % 2 ^ 32] ∧
        ∀ w ∈ d.whip.due, s.next < w.due) ∧
      (held → s.Runs (.beatBoundary i) fun d => d.whip.seq = s.dev.whip.seq ∧ d.whip.words = s.dev.whip.words ∧
        Dev.Counts s.dev d .WHP_MISSED [] 1 ∧ Dev.Reports s.dev d 99)) ∧
    (∀ t, 600 ≤ (s.at t).clk.cclk → s.Runs (.whipOutFall t) fun d => d.whip = { s.dev.whip with outLevel := false } ∧
      Dev.Keeps [.whip] [] (s.at t) d)

/-- PMC_COUNTER_WRAP of a counter with EN, an event code that R576 lists and a FILTER that lets events through adds n
in edge mode, at most one in level mode, mod 2^48, and sets OVF when it wraps; every other counter stands. More than
255 in one CCLK set LOST and report F166 + b. Of any other counter it changes nothing. PMC_COUNTER_WRITE sets the half
it names and leaves every other word but counters; of a counter without EN the other half stands as this CCLK began.
That the command stands for n occurrences in one CCLK is the model's choice, log entry 27. (R575, R576, R577, R578,
R582, R591.) -/
def Obligations.CountersWrapAndAreWritten : Prop :=
  ∀ (s : State) (b k : Nat), s.Ready → b < 20 → k < 8 →
    (s.dev.pmcLive b k = true → ∀ n,
      let m := if s.dev.flag .PMC_CNT_CFG [b, k] 30 = true then min n 1 else n
      n ≤ 255 → s.Runs (.pmcCounterWrap b k n) fun d => d.pmcVal b k = (s.dev.pmcVal b k + m) % 2 ^ 48 ∧
      d.flag .PMC_CNT_CFG [b, k] 29 = (s.dev.flag .PMC_CNT_CFG [b, k] 29 || decide (2 ^ 48 ≤ s.dev.pmcVal b k + m)) ∧
      (∀ b' k', b' < 20 → k' < 8 → (b', k') ≠ (b, k) → d.pmcVal b' k' = s.dev.pmcVal b' k') ∧ Dev.Keeps [] [] s.dev d) ∧
    (s.dev.pmcLive b k = true → s.dev.hears (166 + b) → ∀ n, 255 < n → s.Runs (.pmcCounterWrap b k n) fun d =>
      d.flag .PMC_CNT_CFG [b, k] 28 = true ∧ Dev.Reports s.dev d (166 + b) ∧ Dev.Keeps eventParts (eventKeys (166 + b)) s.dev d) ∧
    (s.dev.pmcLive b k = false → ∀ n, s.Runs (.pmcCounterWrap b k n) fun d => d.pmcVal b k = s.dev.pmcVal b k ∧
      Dev.Keeps [] [] s.dev d) ∧
    (s.dev.host.d3hot = false → ∀ v : Word,
      let e := ({ s.dev with out := [] } : Dev).packBefore
      (∀ hi, s.Runs (.pmcCounterWrite b k hi v) fun d => Dev.Keeps [.offset] [] e d) ∧
      (s.dev.flag .PMC_CNT_CFG [b, k] 31 = false →
        (s.Runs (.pmcCounterWrite b k false v) fun d => d.rd .PMC_CNT_LO [b, k] = v.toNat ∧
          d.rd .PMC_CNT_HI [b, k] = e.pmcBegan b k / 2 ^ 32) ∧
        (s.Runs (.pmcCounterWrite b k true v) fun d => d.rd .PMC_CNT_LO [b, k] = e.pmcBegan b k % 2 ^ 32 ∧
          bits (d.rd .PMC_CNT_HI [b, k]) 15 0 = bits v.toNat 15 0)))

/-- TIME_SNAPSHOT leaves a snapshot asked for. In SOLO, ACTIVE or FENCED, an edge of the set polarity at an enabled
PPS input, after 100 ns of its previous level, is captured with its beat, offset, quarter and the four times, replaces
the capture before and shows PPS_EDGE; in STANDBY and SYNCING such an edge only joins the device's own captures, kept
for a beat whose record is lost. An edge at a disabled input, of the other polarity, or after less than 100 ns,
changes nothing. An enabled output of an enabled, unsquelched time base rises at a whole second plus OFS later than
its last, and falls when its time base has counted WIDTH us more. The next boundary takes a snapshot that was asked
for, and shows it. A pulse of a time base that holds its value is log entry 90. (R451, R455, R456, R466, R509.) -/
def Obligations.TimeIsCapturedAndPulsed : Prop :=
  ∀ s : State, s.Ready →
    (s.dev.host.d3hot = false → s.Runs .timeSnapshot fun d => d.time = { s.dev.time with snapReq := true } ∧
      Dev.Keeps [.time, .offset] [] s.dev d) ∧
    (∀ i t phi held fall, i < 4 → phi < 4 →
      let e := s.at t
      let edge := s.dev.flag .TIM_PPSI_CFG [i] 31 = true ∧ s.dev.flag .TIM_PPSI_CFG [i] 30 = fall ∧ 100 ≤ held
      let own := s.dev.pair.state ≠ .standby ∧ s.dev.pair.state ≠ .syncing
      (edge → own → s.Runs (.ppsInputEdge i t phi held fall) fun d => (d.ppsIn i).beat = e.beat ∧ (d.ppsIn i).offset = e.clk.cclk ∧
        (d.ppsIn i).phi = phi ∧ (d.ppsIn i).caps = e.stamps e.now phi ∧ (∀ j, j ≠ i → d.ppsIn j = s.dev.ppsIn j) ∧
        Dev.Sets s.dev d .TIM_INT_STAT [] (2 ^ (4 + i)) ∧ Dev.Keeps [.time, .pair] [Reg.key .TIM_INT_STAT] e d) ∧
      (edge → ¬ own → s.Runs (.ppsInputEdge i t phi held fall) fun d =>
        d.ppsIn i = { s.dev.ppsIn i with kept := (s.dev.ppsIn i).kept ++ [(e.beat, e.clk.cclk, phi, e.stamps e.now phi)] } ∧
        (∀ j, j ≠ i → d.ppsIn j = s.dev.ppsIn j) ∧ Dev.Keeps [.time] [] e d) ∧
      (¬ edge → s.Runs (.ppsInputEdge i t phi held fall) fun d => Dev.Keeps [] [] e d)) ∧
    (∀ i, s.Beats → s.dev.time.snapReq = true → s.Runs (.beatBoundary i) fun d => d.time.snapReq = false ∧ d.time.snapAt = s.next ∧
      (∀ n, n < 4 → tgetD d.time.snap n 0 = (d.tb n).val / 2 ^ 24) ∧ d.flag .TIM_INT_STAT [] 11 = true) ∧
    (∀ o t sec, o < 4 →
      let e := s.at t
      e.ppsSecond o = some sec → s.dev.flag .TIM_PPSO_CFG [o] 31 = true → s.dev.clk.run = true → e.outputsOff = false →
      (s.dev.tb (s.dev.ppsoTb o)).en = true → e.squelched o = false → (∀ l, (s.dev.ppsOut o).lastSec = some l → l < sec) →
      s.Runs (.ppsOutputRise o t) fun d =>
        d.ppsOut o = { level := true, lastSec := some sec, left := e.ppsRest o sec + s.dev.fld .TIM_PPSO_CFG [o] 19 0 * 1000 * 2 ^ 40,
                         since := e.now, phi := e.ppsRest o sec / 2 ^ 38 } ∧
        (∀ j, j ≠ o → d.ppsOut j = s.dev.ppsOut j) ∧ Dev.Keeps [.time] [] e d) ∧
    (∀ o t, o < 4 → (s.dev.ppsOut o).level = true → (s.dev.ppsOut o).left < (s.at t).ppsRun o ((s.at t).now + 1) →
      s.Runs (.ppsOutputFall o t) fun d => (d.ppsOut o).level = false ∧ (d.ppsOut o).lastSec = (s.dev.ppsOut o).lastSec ∧ (∀ j, j ≠ o → d.ppsOut j = s.dev.ppsOut j) ∧
      Dev.Keeps [.time] [] (s.at t) d)

/-- A BAR2 write of words 0 to 62 of an idle window stores the word and leaves every other one; to a busy window it is
dropped and shown; with a byte enable clear it is counted in HST_CNT(1). KW_GO on a well-formed window of KIND 1 or 2,
in a running device that leads and takes jobs, zeroes the window, makes it busy and queues its job in the order of
R258; of KIND 3 the erasure enters the open batch with room and the window ends OK. A badly formed window ends with
FORMAT, and a device that does not take deliveries answers NOT_READY, as one does whose engine has failed, by the
model's choice in log entry 71. (R258, R260, R269, R270, R271, R272, R273, R643.) -/
def Obligations.KeyWindowsTakeWordsAndJobs : Prop :=
  ∀ s : State, s.Ready → s.dev.host.d3hot = false →
    (∀ off val w i, off % 2 ^ 16 / 4 = 64 * w + i → i < 63 → s.dev.kwStat w ≠ 1 → s.Runs (.keyWindowWrite off val 15) fun d =>
      d.kwWord w i = val.toNat ∧ (∀ w' i', i' < 64 → (w', i') ≠ (w, i) → d.kwWord w' i' = s.dev.kwWord w' i') ∧
      Dev.Keeps [.vault, .offset] [] s.dev d) ∧
    (∀ off val w i, off % 2 ^ 16 / 4 = 64 * w + i → i < 64 → s.dev.kwStat w = 1 → s.Runs (.keyWindowWrite off val 15) fun d =>
      Dev.Sets s.dev d .VLT_INT_STAT [] 256 ∧ Dev.Keeps [.offset] [Reg.key .VLT_INT_STAT] s.dev d) ∧
    (∀ off val be, be ≠ 15 → s.Runs (.keyWindowWrite off val be) fun d => Dev.Counts s.dev d .HST_CNT [1] 1 ∧
      Dev.Keeps [.host, .offset] [Reg.key .HST_CNT [1], Reg.key .HST_INT_STAT, Reg.key .HST_ACC_ERR] s.dev d) ∧
    (∀ w c, w < 256 → (c = .stageKeyDelivery w ∨ c = .ckDelivery w ∨ c = .ckErase w) → s.dev.kwStat w ≠ 1 →
      let kind := bits (s.dev.kwWord w 0) 31 28
      let ends := fun (code : Nat) => s.Runs c fun d => d.kwStat w = code ∧ d.vault.jobs = s.dev.vault.jobs ∧
        d.batch = s.dev.batch ∧ (∀ i, i < 64 → d.kwWord w i = 0) ∧ Dev.Sets s.dev d .VLT_INT_STAT [] 1 ∧
        Dev.Keeps [.vault, .offset] [Reg.key .VLT_INT_STAT] s.dev d
      (s.dev.kwNotReady = true → ends 8) ∧
      (s.dev.kwNotReady = false → s.dev.kwBad w = true → ends 3) ∧
      (s.dev.kwNotReady = false → s.dev.kwBad w = false → kind ≠ 3 → s.dev.vault.engOk = false → ends 8) ∧
      (s.dev.kwNotReady = false → s.dev.kwBad w = false → kind ≠ 3 → s.dev.vault.engOk = true → s.Runs c fun d => d.kwStat w = 1 ∧
        (∃ j : KwJob, d.vault.jobs = placeJob ⟨.window j, false, 0, s.dev.clk.ticks, 0, 0⟩ s.dev.vault.jobs ∧ j.window = w ∧ j.kind = kind ∧
          j.kek = bits (s.dev.kwWord w 0) 27 24 ∧ j.target = s.dev.kwWord w 1 ∧
          j.blob = (List.range (if kind = 1 then 16 else 12)).flatMap fun i => bytesOfNat 4 (s.dev.kwWord w (2 + i))) ∧
        (∀ i, i < 64 → d.kwWord w i = 0) ∧ Dev.Keeps [.vault, .offset] [] s.dev d) ∧
      (s.dev.kwNotReady = false → s.dev.kwBad w = false → kind = 3 → s.dev.storeSize + 16 ≤ 16384 → s.Runs c fun d =>
        d.kwStat w = 2 ∧ .dlv ⟨3, bits (s.dev.kwWord w 1) 11 0, 0, 0, 0⟩ ∈ d.batch.open_ ∧ (∀ i, i < 64 → d.kwWord w i = 0) ∧
        Dev.Keeps [.vault, .batch, .offset] [Reg.key .VLT_INT_STAT] s.dev d))

/-- KEY_JOB_START at the next block start of the beat, with no derivation waiting, starts the oldest job with its
number of blocks; a window job takes the key of its KEK slot, which loses one use, and one whose slot is empty or
spent ends with NO_KEK or SPENT. KEY_JOB_END of a job whose last block ends in this beat takes it out of the queue: an
unwrap whose check value is wrong ends UNWRAP, one whose plaintext does not name the window's target ends TARGET, and
one that fits joins the open batch with its key, and ends OK. KEK_CHECK_VALUE of the job at the head shows the check
value of the slot's key and ends the agreement that asked for it. Where no block starts, or no job ends, the commands
change nothing. (R257, R258, R259, R264, R267, R271, R272, R273.) -/
def Obligations.KeyJobsUseAKekAndUnwrap : Prop :=
  ∀ s : State, s.Ready →
    let v := s.dev.vault
    let ended := fun (d : Dev) (w code : Nat) (rest : List EngJob) => d.kwStat w = code ∧ d.vault.jobs = rest ∧
      Dev.Sets s.dev d .VLT_INT_STAT [] 1
    let starts := fun (j : EngJob) (key : BitVec 256) (c : Nat) => { j with
      started := true, kek := key, from_ := if s.dev.clk.run then c else s.dev.clk.ticks,
      left := match j.work with
        | .knownAnswer => 2
        | .checkValue _ => 1
        | .window w => if w.kind = 1 then 42 else 30
        | .ckCommit => 30 * v.ckSnap.length + 1 + (64 + 48 * v.ckSnap.length + 15) / 16 }
    (∀ j rest c, v.engOk = true → s.dev.engineHeld = false → s.dev.blockStart = some c → v.jobs = j :: rest → j.started = false →
      (∀ w e, j.work = .window w → tget v.kek w.kek = some e → e.uses ≠ 0 → s.Runs .keyJobStart fun d =>
        d.vault.jobs = starts j e.key c :: rest ∧
        (∃ e', tget d.vault.kek w.kek = some e' ∧ e'.key = e.key ∧ e'.uses = e.uses - 1) ∧
        (∀ k, k ≠ w.kek → tget d.vault.kek k = tget v.kek k) ∧ Dev.Keeps [.vault, .offset] [Reg.key .VLT_INT_STAT] s.dev d) ∧
      (∀ w, j.work = .window w → rest = [] → tget v.kek w.kek = none → s.Runs .keyJobStart fun d =>
        ended d w.window (if s.dev.kwNotReady then 8 else 4) [] ∧ d.vault.kek = v.kek ∧
        Dev.Keeps [.vault, .offset] [Reg.key .VLT_INT_STAT] s.dev d) ∧
      (∀ w e, j.work = .window w → rest = [] → tget v.kek w.kek = some e → e.uses = 0 → s.Runs .keyJobStart fun d =>
        ended d w.window (if s.dev.kwNotReady then 8 else 5) [] ∧ d.vault.kek = v.kek ∧
        Dev.Keeps [.vault, .offset] [Reg.key .VLT_INT_STAT] s.dev d) ∧
      ((∀ w, j.work ≠ .window w) → s.Runs .keyJobStart fun d => d.vault = { v with jobs := starts j 0 c :: rest } ∧
        Dev.Keeps [.vault, .offset] [] s.dev d)) ∧
    ((v.engOk = false ∨ s.dev.engineHeld = true ∨ s.dev.blockStart = none) → s.Runs .keyJobStart fun d =>
      Dev.Keeps [.offset] [] s.dev d) ∧
    (∀ (j : EngJob) w rest c, v.jobs = j :: rest → j.work = .window w → s.dev.jobEnds j = some c → s.dev.kwNotReady = false →
      let iv := (unwrapKw j.kek w.blob).1
      let p := (unwrapKw j.kek w.blob).2
      let id := natOfBytes (p.take 2)
      let stage := natOfBytes ((p.drop 4).take 4)
      let fits := natOfBytes ((p.drop 2).take 2) = w.kind ∧ id = w.target % 2 ^ 16 ∧
        if w.kind = 1 then natOfBytes (p.drop 52) = 0 ∧ id ≠ 0 ∧ stage ≠ 0 else stage = 0
      let dl : Delivery := ⟨w.kind, id, if w.kind = 1 then stage else 0, BitVec.ofNat 256 (natOfBytes ((p.drop 8).take 32)),
        if w.kind = 1 then BitVec.ofNat 96 (natOfBytes ((p.drop 40).take 12)) else 0⟩
      (iv ≠ 0xA6A6A6A6A6A6A6A6#64 → s.Runs .keyJobEnd fun d => ended d w.window 6 rest ∧ d.batch = s.dev.batch ∧
        Dev.Keeps [.vault, .offset] [Reg.key .VLT_INT_STAT] s.dev d) ∧
      (iv = 0xA6A6A6A6A6A6A6A6#64 → ¬ fits → s.Runs .keyJobEnd fun d => ended d w.window 7 rest ∧ d.batch = s.dev.batch ∧
        Dev.Keeps [.vault, .offset] [Reg.key .VLT_INT_STAT] s.dev d) ∧
      (iv = 0xA6A6A6A6A6A6A6A6#64 → fits → s.dev.storeSize + 16 ≤ 16384 → s.Runs .keyJobEnd fun d => ended d w.window 2 rest ∧
        .dlv dl ∈ d.batch.open_ ∧ Dev.Keeps [.vault, .batch, .pair, .offset] [Reg.key .VLT_INT_STAT] s.dev d)) ∧
    (∀ (j : EngJob) w rest c, v.jobs = j :: rest → j.work = .window w → s.dev.jobEnds j = some c → s.dev.kwNotReady = true →
      s.Runs .keyJobEnd fun d => ended d w.window 8 rest ∧ Dev.Keeps [.vault, .offset] [Reg.key .VLT_INT_STAT] s.dev d) ∧
    (∀ (j : EngJob) rest c, v.jobs = j :: rest → j.work = .ckCommit → s.dev.jobEnds j = some c → s.Runs .keyJobEnd fun d =>
      d.vault = { v with jobs := rest } ∧ Dev.Keeps [.vault, .offset] [] s.dev d) ∧
    ((∀ j ∈ v.jobs.head?, s.dev.jobEnds j = none) → (s.Runs .keyJobEnd fun d => Dev.Keeps [] [] s.dev d) ∧
      ∀ k, s.Runs (.kekCheckValue k) fun d => Dev.Keeps [] [] s.dev d) ∧
    (∀ k e (j : EngJob) rest c, v.jobs = j :: rest → j.work = .checkValue k → s.dev.jobEnds j = some c → tget v.kek k = some e →
      s.Runs (.kekCheckValue k) fun d =>
      d.vault.kcv = (aesEnc e.key 0#128).extractLsb' 64 64 ∧ d.vault.jobs = rest ∧
      (v.pk = some (3, k) → d.vault.pk = none ∧ d.vault.pkRes = 1 ∧ Dev.Sets s.dev d .VLT_INT_STAT [] 32) ∧
      Dev.Keeps [.vault, .offset] (Reg.key .VLT_INT_STAT :: (List.range 24).map fun i => Reg.key .VLT_PK_IN [i]) s.dev d)

/-- KEK_AGREEMENT of slot k and ATTESTATION start an idle public-key unit of a device that takes them; a start while
it is busy is dropped and shown. When an agreement completes for a valid point of the host, slot k holds the key that
R264 derives, with its limit of uses, and its check value is asked for; an invalid point ends with KEY and holds
nothing. An attestation completes with the signature of the identity key over the message of R265, and its input words
are cleared. After a life-cycle transition an operation under way is refused. That the agreement stays BUSY until its
check value is made, and how such a refusal ends, is log entry 35. (R251, R258, R261, R263, R264, R265, R266, R294,
R295.) -/
def Obligations.PublicKeyUnitAgreesAndSigns : Prop :=
  ∀ s : State, s.Ready →
    let v := s.dev.vault
    let inputs := (List.range 24).map fun i => Reg.key .VLT_PK_IN [i]
    let x := natOfBytes (s.dev.wordsBytes .VLT_PK_IN 0 12)
    let y := natOfBytes (s.dev.wordsBytes .VLT_PK_IN 12 12)
    (s.dev.host.d3hot = false → ∀ k, k < 16 →
      (v.pk = none → v.resetReq = false → v.engOk = true → s.dev.kekBusy k = false → s.Runs (.kekAgreement k) fun d =>
        d.vault = { v with pk := some (1, k) } ∧ Dev.Keeps [.vault, .offset] [] s.dev d) ∧
      (v.pk = none → v.resetReq = false → v.engOk = true → s.dev.kekBusy k = true → s.Runs (.kekAgreement k) fun d =>
        d.vault.pk = none ∧ d.vault.pkRes = 3 ∧ d.vault.kek = v.kek ∧
        Dev.Keeps [.vault, .offset] (Reg.key .VLT_INT_STAT :: inputs) s.dev d) ∧
      (v.pk = none → v.resetReq = false → v.engOk = true → s.Runs .attestation fun d =>
        d.vault = { v with pk := some (2, 0) } ∧ Dev.Keeps [.vault, .offset] [] s.dev d) ∧
      (v.pk ≠ none → ∀ c, (c = .kekAgreement k ∨ c = .attestation) → s.Runs c fun d => Dev.Sets s.dev d .VLT_INT_STAT [] 256 ∧
        Dev.Keeps [.offset] [Reg.key .VLT_INT_STAT] s.dev d)) ∧
    (v.pk ≠ none → v.resetReq = true → s.Runs .pkOperationDone fun d => d.vault.pk = none ∧ d.vault.pkRes = 4 ∧ d.vault.kek = v.kek ∧
      Dev.Keeps [.vault] (Reg.key .VLT_INT_STAT :: inputs) s.dev d) ∧
    (∀ k z y', v.pk = some (1, k) → v.resetReq = false → ecValid x y = true → ecMul v.ident.toNat (some (x, y)) = some (z, y') →
      s.Runs .pkOperationDone fun d =>
      tget d.vault.kek k = some ⟨agreedKey z "FIONEKEK" (s.dev.serialBytes ++ [BitVec.ofNat 8 k]), s.dev.kekLimit, false⟩ ∧
      (∀ j, j ≠ k → tget d.vault.kek j = tget v.kek j) ∧ d.vault.pk = some (3, k) ∧
      (v.engOk = true → d.vault.jobs = placeJob ⟨.checkValue k, false, 0, s.dev.clk.ticks, 0, 0⟩ v.jobs) ∧
      Dev.Keeps [.vault] [] s.dev d) ∧
    (∀ k, v.pk = some (1, k) → v.resetReq = false → ecValid x y = false → s.Runs .pkOperationDone fun d => d.vault.pk = none ∧ d.vault.pkRes = 2 ∧
      d.vault.kek = v.kek ∧ Dev.Sets s.dev d .VLT_INT_STAT [] 32 ∧ Dev.Keeps [.vault] (Reg.key .VLT_INT_STAT :: inputs) s.dev d) ∧
    (∀ k, v.pk = some (2, k) → v.resetReq = false → s.Runs .pkOperationDone fun d =>
      (let g := ecdsaSign v.ident.toNat (s.dev.attestMsg (s.dev.wordsBytes .VLT_PK_IN 0 12))
       d.vault.pkOut = bytesOfNat 48 g.1 ++ bytesOfNat 48 g.2) ∧
      d.vault.pk = none ∧ d.vault.pkRes = 1 ∧ (∀ i, i < 24 → d.rd .VLT_PK_IN [i] = 0) ∧ Dev.Sets s.dev d .VLT_INT_STAT [] 32 ∧
      Dev.Keeps [.vault] (Reg.key .VLT_INT_STAT :: inputs) s.dev d)

/-- While a life-cycle command is under way, each row checks the record that GO found in VLT_LC_CMD by R248 and R249.
A record that fails ends with its result and burns nothing. One that passes burns what R249 says for its OP, clears
every KEK, CK, stage and probe key, asks for a reset and ends DONE. If the OTP does not take a write, it ends OTP_FAIL
with F014 and no fuse is burnt; if power fails in a write, the command stays under way and no fuse is burnt; in both
cases the hash is written only when its own write had ended. The record's words are cleared when the command ends.
Without a command under way nothing changes. A claim in VENDOR burns the owner's hash and the OWNER fuse. The record
at GO, and what a failed or cut write leaves, are log entry 35. (R248, R249, R250, R251, R291, R295.) -/
def Obligations.LifeCycleMovesOrRefuses : Prop :=
  ∀ s : State, s.Ready →
    let v := s.dev.vault
    let old := s.dev.board.otp
    let rec_ := v.lcRec
    let words := (List.range 64).map fun i => Reg.key .VLT_LC_CMD [i]
    let ends := fun (d : Dev) (code : Nat) => d.vault.lcBusy = false ∧ d.vault.lcRes = code ∧
      (∀ i, i < 64 → d.rd .VLT_LC_CMD [i] = 0) ∧ d.flag .VLT_INT_STAT [] 5 = true
    let noFuse := fun (d : Dev) (o : Otp) (hash : Bool) => d.board.otp.lcOwner = old.lcOwner ∧ d.board.otp.lcReturn = old.lcReturn ∧
      d.board.otp.epochs = old.epochs ∧ d.board.otp.serial = old.serial ∧ (hash = true → d.board.otp.ownerHash = o.ownerHash) ∧
      ∀ k, k ≠ natOfBytes ((rec_.drop 5).take 1) → tget d.board.otp.ownerHash k = tget old.ownerHash k
    (∀ x c, (c = .lcClaim x ∨ c = .lcTransfer x ∨ c = .lcReturn x) →
      (v.lcBusy = false → s.Runs c fun d => Dev.Keeps [] [] s.dev d) ∧
      (v.lcBusy = true → v.resetReq = true → s.Runs c fun d => ends d 4 ∧ d.board = s.dev.board ∧ d.vault.kek = v.kek ∧
        Dev.Keeps [.vault] (Reg.key .VLT_INT_STAT :: words) s.dev d) ∧
      (v.lcBusy = true → v.resetReq = false → (x = .hashFails ∨ x = .fuseFails → s.dev.hears 14) → s.Runs c fun d =>
        match lcCheck v.lc v.epoch old rec_ with
        | .inl r => ends d r ∧ d.board = s.dev.board ∧ d.vault.kek = v.kek ∧ d.vault.resetReq = false ∧
            Dev.Keeps [.vault] (Reg.key .VLT_INT_STAT :: words) s.dev d
        | .inr o =>
          match x with
          | .done => ends d 1 ∧ d.board = { s.dev.board with otp := o } ∧ d.vault.kek = [] ∧ d.vault.ck = [] ∧
            d.vault.resetReq = true ∧ (∀ a, d.slotAt a = none) ∧ d.coach.probe = [] ∧ d.vault.drvDone = none ∧
            d.flag .VLT_INT_STAT [] 9 = true ∧ Dev.Keeps [.vault, .coach, .board] (Reg.key .VLT_INT_STAT :: words) s.dev d
          | .hashFails | .fuseFails => ends d 7 ∧ noFuse d o (x == .fuseFails) ∧ d.vault.kek = v.kek ∧ Dev.Reports s.dev d 14 ∧
            Dev.Keeps (.vault :: .board :: eventParts) (Reg.key .VLT_INT_STAT :: words ++ eventKeys 14) s.dev d
          | .hashCut | .fuseCut => d.vault = v ∧ noFuse d o (x == .fuseCut) ∧ Dev.Keeps [.board] [] s.dev d)) ∧
    (v.lc = .vendor → natOfBytes ((rec_.drop 4).take 1) = 1 → match lcCheck v.lc v.epoch old rec_ with
      | .inl _ => True
      | .inr o => o = { old with
          lcOwner := true,
          ownerHash := tset old.ownerHash 0 (BitVec.ofNat 384 (natOfBytes ((rec_.drop 16).take 48)), true) } ∧
        sha384N ((rec_.drop 64).take 96) = BitVec.ofNat 384 (natOfBytes ((rec_.drop 16).take 48)) ∧
        natOfBytes ((rec_.drop 8).take 8) = s.dev.otp.serial.toNat)

/-- With the Ridge locked both ways, a good random number generator and no nonce drawn yet, PAIR_LINK_KEY_EXCHANGE
draws the lock nonce and sends it in a KIND 4 message, followed by the answer to a partner's nonce that has come. On a
link that is up, a KIND 4 message is held as the partner's nonce and, once this device has drawn its own, answered
with four fragments of the certificate and the attestation, a KIND 1 message as a fragment of its certificate, and a
KIND 2 message whose certificate and attestation hold as its identity. PAIR_LINK_KEY_AGREED with all three makes the
key of R275 the pair link key and the partner trusted. Otherwise the commands change nothing. (R274, R275, R534.) -/
def Obligations.PairLinkKeyIsAgreed : Prop :=
  ∀ s : State, s.Ready →
    let v := s.dev.vault
    let sends := v.trngOk = true ∧ v.nonce = none ∧ s.dev.ridge.linkUp = true ∧ s.dev.ridge.peerUp = true
    let body := fun (m : Bytes) => (m.drop 4).take (field m 2 2)
    let answers := fun (l : List Bytes) => l.map (fun x => (field x 0 1, field x 1 1)) = [(1, 0), (1, 1), (1, 2), (1, 3), (2, 0)]
    (sends → s.Runs .pairLinkKeyExchange fun d => ∃ n : BitVec 384,
      let m := keyMessage 4 0 (bytesOfNat 48 n.toNat)
      d.vault = { v with nonce := some n, keyQ := d.vault.keyQ } ∧ .keyMsg m ∈ d.out ∧
      (∃ l, d.vault.keyQ = v.keyQ ++ [m] ++ l ∧ if v.peerNonce = none then l = [] else answers l) ∧ Dev.Keeps [.vault] [] s.dev d) ∧
    (¬ sends → s.Runs .pairLinkKeyExchange fun d => Dev.Keeps [] [] s.dev d) ∧
    (∀ b m, s.dev.ridge.linkUp = true → field m 0 1 = 1 → s.Runs (.keyChannelReceive b m) fun d =>
      d.vault = { v with peerCert := tset v.peerCert (field m 1 1 % 4) (body m) } ∧ Dev.Keeps [.vault] [] s.dev d) ∧
    (∀ b m, s.dev.ridge.linkUp = true → field m 0 1 = 2 → s.Runs (.keyChannelReceive b m) fun d =>
      (match s.dev.acceptPartner (body m) with
       | some pub => d.vault.peerPub = some pub ∧ d.vault.peerSerial = BitVec.ofNat 64 (field (body m) 8 8)
       | none => d.vault = v) ∧ Dev.Keeps [.vault] [] s.dev d) ∧
    (∀ b m, s.dev.ridge.linkUp = true → field m 0 1 = 4 → s.Runs (.keyChannelReceive b m) fun d =>
      d.vault = { v with peerNonce := some (BitVec.ofNat 384 (natOfBytes (body m))), keyQ := d.vault.keyQ } ∧
      (∃ l, d.vault.keyQ = v.keyQ ++ l ∧ if v.nonce = none then l = [] else answers l) ∧
      Dev.Keeps [.vault] [] s.dev d) ∧
    (∀ b m, s.dev.ridge.linkUp = true → field m 0 1 = 3 → s.dev.takesChannels = false → s.Runs (.keyChannelReceive b m) fun d =>
      Dev.Keeps [] [] s.dev d) ∧
    (∀ b m, s.dev.ridge.linkUp = false → s.Runs (.keyChannelReceive b m) fun d => Dev.Keeps [] [] s.dev d) ∧
    (∀ pub k, v.peerPub = some pub → s.dev.linkKey pub = some k → s.Runs .pairLinkKeyAgreed fun d =>
      d.vault = { v with pairKey := k, trusted := true } ∧ Dev.Keeps [.vault] [] s.dev d) ∧
    (v.peerPub = none → s.Runs .pairLinkKeyAgreed fun d => Dev.Keeps [] [] s.dev d)

/-- On a powered lane in frame mode that is not off, the code groups of 8b/10b are read in RX_INV's polarity, and
those in error count. In SEARCH or CANDIDATE, a marker with a header that fits makes a candidate, of at most four, and
locks the lane when it lies 2,500 code groups after one; in HUNT, a header that fits does so without a marker, and
locks at the second recurrence with BEAT one more each time. A lock centres the elastic buffer, which loses lock when
it runs full or empty. At a locked lane's position a marker or a fitting header keeps the segments whose checks hold
and returns MISS to 0; otherwise MISS rises, and errors are counted. The last frame of a set whose positions lie
within 64 code groups and whose beats agree brings the link up; one with more skew leaves it down. With the hunt
enabled, 3,600 CCLK without lock start it, and 12,000 CCLK of it end in SEARCH. A lane timeout takes a locked lane to
SEARCH with RELOCK counted, F134 + j and the link down. 2 ms without the link make PARTNER_ABSENT with the condition
of F057. Where its condition is not met, a command changes nothing. What the operands are, and that a set's positions
lie in half a frame's time, is log entries 39 and 48. (R525, R526, R527, R529, R530, R535, R538, R539, R540, R551,
R552.) -/
def Obligations.LanesSearchHuntAndLock : Prop :=
  ∀ (s : State) (j : Nat), s.Ready → j < 16 →
    let x := s.dev.lane j
    let cnt := fun i => Reg.key .RDG_LANE_CNT [j, i]
    let ends := fun (d : Dev) (y : Lane) (keys : List Nat) => d.lane j = y ∧ (∀ i, i ≠ j → d.lane i = s.dev.lane i) ∧
      Dev.Keeps [.ridge] keys s.dev d
    (s.dev.ridgeOn = true → s.dev.prbsMode j = false → ∀ (pos : Nat) (ar : Int) (er mk h a b : List CodeGroup),
      let c : Instr := .ridgeFrameReceive j pos ar er mk h a b
      let r := (({ s.dev with out := [] } : Dev).bufferMoves j ar).readFrame j er mk h a b
      let e := r.1
      let f := r.2
      let y := e.lane j
      let fits := frameFits f j
      let sa := segOk 2224 f.segA
      let sb := segOk 256 f.segB
      let bad := b2n sa.isNone + b2n sb.isNone
      let buffered := 0 < (x.fill : Int) + ar ∧ (x.fill : Int) + ar < 64
      let read := readGroups x.rxRd (polarity (s.dev.flag .RDG_LANE_CTL [j] 1) (er ++ mk ++ h ++ a ++ b))
      let others := ∃ i, i < 16 ∧ i ≠ j ∧ ¬ ((s.dev.lane i).state = .locked ∧ (s.dev.lane i).fresh = true)
      let left := fun (d : Dev) (z : Lane) (keys : List Nat) => d.lane j = z ∧ (∀ i, i ≠ j → d.lane i = s.dev.lane i) ∧
        Dev.Keeps [.ridge] keys e d
      let got := { y with
        pos := pos + 2500, fresh := true, misses := 0, usable := true, beat := hdrBeat f.hdr, data := hdrType f.hdr == 2,
        rxUp := hdrUp f.hdr, segA := sa, segB := sb }
      let locks := s.Runs c fun d => Dev.Counts e d .RDG_LANE_CNT [j, 2] bad ∧
        left d { got with state := .locked, cands := [], fill := 32 } [cnt 2, Reg.key .RDG_INT_STAT]
      (x.state = .off → s.Runs c fun d => Dev.Keeps [] [] s.dev d) ∧
      (x.state ≠ .locked ∨ buffered → Dev.Counts s.dev e .RDG_LANE_CNT [j, 0] (read.1.filter (·.2)).length ∧
        y = { x with rxRd := read.2, fill := if x.state = .locked then ((x.fill : Int) + ar).toNat else x.fill } ∧
        Dev.Keeps [.ridge] [cnt 0] s.dev e) ∧
      ((x.state = .search ∨ x.state = .candidate) →
        let good := f.marker = true ∧ fits = true
        let again := ∃ z ∈ x.cands, z.1 + 2500 = pos
        let kept := x.cands.filter fun z => decide (pos < z.1 + 2500 ∨ pos = z.1 + 2500 ∧ f.marker = true)
        (good → again → others → locks) ∧
        (¬ (good ∧ again) →
          let new := if f.marker && fits && decide (kept.length < 4) then kept ++ [(pos, hdrBeat f.hdr, 0)] else kept
          s.Runs c fun d => left d { y with
            cands := new, state := if new = [] then .search else .candidate,
            since := if new = [] ∧ x.state = .candidate then s.dev.clk.ticks else x.since } [])) ∧
      (x.state = .hunt →
        let next := fun (z : Nat × Nat × Nat) => decide (z.1 + 2500 = pos ∧ (z.2.1 + 1) % 2 ^ 32 = hdrBeat f.hdr)
        let kept := x.cands.filter fun z => decide (pos ≤ z.1 + 2500)
        (fits = false → s.Runs c fun d => Dev.Keeps [] [] e d) ∧
        (fits = true → x.cands.find? next = none → s.Runs c fun d =>
          left d { y with cands := if kept.length < 4 then kept ++ [(pos, hdrBeat f.hdr, 0)] else kept } []) ∧
        (∀ z, fits = true → x.cands.find? next = some z →
          (z.2.2 ≠ 1 → s.Runs c fun d => left d { y with cands := x.cands.filter (· != z) ++ [(pos, hdrBeat f.hdr, 1)] } []) ∧
          (z.2.2 = 1 → others → locks))) ∧
      (x.state = .locked → ¬ buffered → s.Runs c fun d => ((d.lane j).state = .search ∨ (d.lane j).state = .candidate) ∧
        d.ridge.linkUp = false ∧ Dev.Counts s.dev d .RDG_LANE_CNT [j, 4] 1) ∧
      (x.state = .locked → buffered →
        let p := fun i => if i = j then pos + 2500 else (s.dev.lane i).pos
        let met := ∀ i, i < 16 → i ≠ j → (s.dev.lane i).state = .locked ∧ (s.dev.lane i).fresh = true
        let missed := { y with pos := pos + 2500, fresh := true, usable := false, segA := none, segB := none }
        (x.pos ≠ pos → others → s.Runs c fun d => Dev.Keeps [] [] e d) ∧
        (x.pos = pos → others → fits = true → s.Runs c fun d =>
          Dev.Counts e d .RDG_LANE_CNT [j, 2] bad ∧ left d got [cnt 2, Reg.key .RDG_INT_STAT]) ∧
        (x.pos = pos → others → f.marker = true → fits = false → s.Runs c fun d =>
          Dev.Counts e d .RDG_LANE_CNT [j, 1] (b2n (!hdrCrc f.hdr)) ∧ Dev.Counts e d .RDG_LANE_CNT [j, 2] bad ∧
          left d { missed with misses := 0 } [cnt 1, cnt 2, Reg.key .RDG_INT_STAT]) ∧
        (x.pos = pos → others → f.marker = false → fits = false → x.misses + 1 ≠ 4 → s.Runs c fun d =>
          Dev.Counts e d .RDG_LANE_CNT [j, 1] (b2n (!hdrCrc f.hdr)) ∧ Dev.Counts e d .RDG_LANE_CNT [j, 3] 1 ∧
          left d { missed with misses := x.misses + 1 } [cnt 1, cnt 3]) ∧
        (x.pos = pos → f.marker = false → fits = false → x.misses + 1 = 4 → s.Runs c fun d => (d.lane j).state = .search ∧
          d.ridge.linkUp = false ∧ Dev.Counts s.dev d .RDG_LANE_CNT [j, 4] 1) ∧
        (x.pos = pos → fits = true → met → s.dev.ridge.linkUp = false → (∀ i i', i < 16 → i' < 16 → p i ≤ p i' + 64) →
          (∀ i, i < 16 → i ≠ j → (s.dev.lane i).usable = true → (s.dev.lane i).beat = hdrBeat f.hdr) →
          s.Runs c fun d => d.ridge.linkUp = true ∧ ∀ i, i < 16 → (d.lane i).fresh = false ∧ (d.lane i).state = .locked) ∧
        (x.pos = pos → fits = true → met → (∃ i i', i < 16 ∧ i' < 16 ∧ p i' + 64 < p i) →
          (∀ i i', i < 16 → i' < 16 → p i < p i' + 1250) →
          s.Runs c fun d => d.ridge.linkUp = false ∧ ∀ i, i < 16 → (d.lane i).fresh = false))) ∧
    ((x.state = .search ∨ x.state = .candidate) → s.dev.flag .RDG_CFG [] 0 = true → x.since + 3600 ≤ s.dev.clk.ticks →
      s.Runs (.ridgeCrcHuntStart j) fun d => ends d { x with state := .hunt, cands := [], since := s.dev.clk.ticks } []) ∧
    (¬ ((x.state = .search ∨ x.state = .candidate) ∧ s.dev.flag .RDG_CFG [] 0 = true ∧ x.since + 3600 ≤ s.dev.clk.ticks) →
      s.Runs (.ridgeCrcHuntStart j) fun d => Dev.Keeps [] [] s.dev d) ∧
    (x.state = .hunt → x.since + 12000 ≤ s.dev.clk.ticks → s.Runs (.ridgeHuntTimeout j) fun d => ends d { x with
      state := .search, cands := [], misses := 0, since := s.dev.clk.ticks, segA := none, segB := none, fresh := false, usable := false } []) ∧
    (¬ (x.state = .hunt ∧ x.since + 12000 ≤ s.dev.clk.ticks) → s.Runs (.ridgeHuntTimeout j) fun d => Dev.Keeps [] [] s.dev d) ∧
    (x.state = .off → s.Runs (.ridgeLaneTimeout j) fun d => Dev.Keeps [] [] s.dev d) ∧
    (x.state ≠ .off → x.state ≠ .locked → s.Runs (.ridgeLaneTimeout j) fun d => ends d { x with
      state := .search, cands := [], misses := 0, since := s.dev.clk.ticks, segA := none, segB := none, fresh := false, usable := false } []) ∧
    (x.state = .locked → s.dev.hears (134 + j) → s.Runs (.ridgeLaneTimeout j) fun d => (d.lane j).state = .search ∧
      d.ridge.linkUp = false ∧ Dev.Counts s.dev d .RDG_LANE_CNT [j, 4] 1 ∧ Dev.Reports s.dev d (134 + j) ∧
      (∀ i, i ≠ j → d.lane i = s.dev.lane i) ∧
      Dev.Keeps (.ridge :: .vault :: eventParts)
        ([cnt 4, Reg.key .RDG_INT_STAT] ++ eventKeys (134 + j) ++ eventKeys 56) s.dev d) ∧
    (let due := s.dev.ridge.started = true ∧ s.dev.ridge.linkUp = false ∧ s.dev.ridge.absent = false ∧
        s.dev.ridge.quiet + 2400000 ≤ s.dev.clk.ticks;
      (due → s.Runs .partnerAbsent fun d => d.ridge = { s.dev.ridge with absent := true } ∧
        (d.src 57).cond = true ∧ Dev.Sets s.dev d .RDG_INT_STAT [] 2 ∧
        Dev.Keeps (.ridge :: eventParts) (Reg.key .RDG_INT_STAT :: eventKeys 57) s.dev d) ∧
      (¬ due → s.Runs .partnerAbsent fun d => Dev.Keeps [] [] s.dev d))

/-- On a lane in PRBS mode with a pattern of R541: PRBS_INJECT leaves the next bit to be inverted; each bit sent steps
the generator and uses the inversion up, and with INJ_RATE r every 2^(9 + r) bits make a new one. A checker without
lock that meets the 256th agreeing bit in a row locks; with lock, each wrong bit is counted, and the 64th wrong bit of
the last 1,024 ends lock and shows it. Under the code that R541 does not use the checker has no lock. On a lane that
is not in PRBS mode nothing changes. (R541, R542, R543, R544.) -/
def Obligations.PrbsLanesCheckAndInject : Prop :=
  ∀ (s : State) (j : Nat), s.Ready → j < 16 →
    let x := s.dev.lane j
    let rate := s.dev.fld .RDG_LANE_CTL [j] 27 24
    let ends := fun (d : Dev) (y : Lane) (keys : List Nat) => d.lane j = y ∧ (∀ i, i ≠ j → d.lane i = s.dev.lane i) ∧
      Dev.Keeps [.ridge] keys s.dev d
    (s.dev.prbsMode j = true → s.dev.host.d3hot = false → s.Runs (.prbsInject j) fun d =>
      (d.lane j) = (if prbsPoly (s.dev.prbsSel j) = none then { x with inj := true, prbsLock := false, prbsAgree := 0 } else { x with inj := true }) ∧
      (∀ i, i ≠ j → d.lane i = s.dev.lane i) ∧ Dev.Keeps [.ridge, .offset] [] s.dev d) ∧
    (s.dev.prbsMode j = true → prbsPoly (s.dev.prbsSel j) = none → ∀ l, l ≠ [] → s.Runs (.prbsChecker j l) fun d =>
      ends d { x with prbsLock := false, prbsAgree := 0, prbsErrs := [] } []) ∧
    (∀ nt, s.dev.prbsMode j = true → prbsPoly (s.dev.prbsSel j) = some nt →
      (let sent := fun (y : Lane) =>
          let full := decide (rate ≠ 0 ∧ 2 ^ (rate + 9) ≤ y.injCnt + 1)
          { y with txReg := (prbsNext nt y.txReg).2, injCnt := if rate = 0 ∨ full = true then 0 else y.injCnt + 1, inj := full }
        ∀ n, s.Runs (.continuousInjection j n) fun d => ends d ((List.range n).foldl (fun y _ => sent y) x) []) ∧
      (let took := fun (r : Lane × Nat × Bool) (b : Bool) =>
          let y := r.1
          let p := prbsNext nt y.prbsReg
          let wrong := p.1 != b
          let errs := (wrong :: y.prbsErrs).take 1024
          let agree := if wrong then 0 else y.prbsAgree + 1
          if y.prbsLock = false then
            ({ y with prbsReg := (2 * y.prbsReg + b2n b) % 2 ^ nt.1, prbsLock := decide (256 ≤ agree),
                      prbsAgree := if 256 ≤ agree then 0 else agree }, r.2)
          else if 64 ≤ (errs.filter id).length then
            ({ y with prbsReg := p.2, prbsLock := false, prbsAgree := 0, prbsErrs := [] }, r.2.1 + b2n wrong, true)
          else ({ y with prbsReg := p.2, prbsErrs := errs }, r.2.1 + b2n wrong, r.2.2)
        ∀ l, s.Runs (.prbsChecker j l) fun d =>
          let r := (l.map (· != s.dev.flag .RDG_LANE_CTL [j] 1)).foldl took (x, 0, false)
          ends d r.1 [Reg.key .RDG_LANE_CNT [j, 5], Reg.key .RDG_INT_STAT] ∧ Dev.Counts s.dev d .RDG_LANE_CNT [j, 5] r.2.1 ∧
          Dev.Sets s.dev d .RDG_INT_STAT [] (if r.2.2 then 16 else 0))) ∧
    (s.dev.prbsMode j = false → (∀ l, s.Runs (.prbsChecker j l) fun d => Dev.Keeps [] [] s.dev d) ∧
      (∀ n, s.Runs (.continuousInjection j n) fun d => Dev.Keeps [] [] s.dev d) ∧
      (s.dev.host.d3hot = false → s.Runs (.prbsInject j) fun d => Dev.Keeps [.offset] [] s.dev d))

/-- In STANDBY a boundary record of the beat under way or the one before, without OVF unless the device coasts, is
held as the newest. A digest message of 128 bytes is held as the newest, with the partner's state and the higher
floor. A STANDBY takes a forwarded write into its open batch, a seal as the next sealed batch, a discard as R50 does,
and a lost channel as CMD_LOST with F062. In phase COPY of SYNCING a shingle that arrives whole and can be read is
held for the boundary and no longer marked; one that cannot be read is marked, and so is every shingle taken by that
beat of which the change list and the device's own changes differ; what is lost, or a list too long for the channel,
leaves a gap in the pass. A SOLO, ACTIVE or FENCED device takes no record, command or shingle, but for one in the beat
after a handover to it. The form of shingles and lists, and what a gap asks for, is log entry 72, the reading of
records log entry 17. (R482, R491, R495, R504, R513, R514, R535.) -/
def Obligations.PairMessagesAreTaken : Prop :=
  ∀ s : State, s.Ready →
    let p := s.dev.pair
    (∀ b r, p.state = .standby → readRecord b = some r → (r.ovf = false ∨ p.coast = true) → p.recFrom ≤ r.beat → r.beat ≤ s.dev.beat →
      s.dev.beat ≤ r.beat + 1 → s.Runs (.boundaryRecordReceive b) fun d =>
      d.pair = { p with recs := (r :: p.recs).take 4 } ∧ Dev.Keeps [.pair] [] s.dev d) ∧
    (∀ b ar, b.length = 128 → s.dev.halt = false → (bit (field b 9 1) 3 = false ∨ p.state ≠ .active) →
      s.Runs (.digestMessageReceive b ar) fun d => d.pair.digests = (readDigest b :: p.digests).take 4 ∧
      d.pair.partner = field b 8 1 ∧ d.pair.peerFloor = max p.peerFloor (field b 12 4) ∧ d.pair.arrive = ar ∧
      d.pair.state = p.state ∧ Dev.Keeps [.pair] [] s.dev d) ∧
    (∀ b ar, b.length ≠ 128 → s.Runs (.digestMessageReceive b ar) fun d => Dev.Keeps [] [] s.dev d) ∧
    (p.state = .standby →
      (∀ k v, (∀ x ∈ s.dev.batch.open_, entrySame (.word k v) x = false) → s.dev.storeSize < 16384 →
        s.Runs (.commandReceive [.write k v]) fun d =>
        d.batch = { s.dev.batch with open_ := s.dev.batch.open_ ++ [.word k v] } ∧ Dev.Keeps [.batch] [] s.dev d) ∧
      (s.Runs (.commandReceive [.discard]) fun d => d.batch = { s.dev.batch with open_ := [], ovf := false } ∧
        Dev.Keeps [.batch] [] s.dev d) ∧
      (∀ a, s.Runs (.commandReceive [.seal a]) fun d => d.batch.open_ = [] ∧
        d.batch.sealed = s.dev.batch.sealed ++ [⟨(s.dev.batch.lastSeq + 1) % 256, a, s.dev.batch.open_⟩] ∧
        Dev.Keeps [.batch] [] s.dev d) ∧
      (s.dev.hears 62 → s.Runs (.commandReceive [.lost]) fun d => Dev.Counts s.dev d .PAIR_CNT [1] 1 ∧
        Dev.Sets s.dev d .PAIR_INT_STAT [] 8 ∧ Dev.Reports s.dev d 62 ∧ d.pair.astray = true ∧
        Dev.Keeps eventParts (Reg.key .PAIR_CNT [1] :: Reg.key .PAIR_INT_STAT :: eventKeys 62) s.dev d)) ∧
    (p.state = .syncing → p.phase = 2 →
      (∀ (x : CopyItem) beat ch,
        let own := ((p.changed.find? fun e => e.1 == beat).map (·.2)).getD []
        let stale := fun y => tget ch y ≠ tget own y ∧ ∃ b, tget p.taken y = some b ∧ b ≤ beat
        (∀ l, s.dev.shingleParts x.at_ x.parts = some l → s.Runs (.copyReceive ⟨beat, ch, false, [x], false⟩) fun d =>
          d.pair.copied = p.copied ++ [{ x with parts := l }] ∧ tget d.pair.taken x.num = some x.at_ ∧ x.num ∉ d.pair.marked ∧
          (∀ y, y ≠ x.num → (y ∈ d.pair.marked ↔ y ∈ p.marked ∨ stale y)) ∧ d.pair.left = x.total - (x.ix + 1) ∧
          (x.ix + 1 = x.total → (x.ix = 0 ∨ p.gap = false ∧ x.ix = p.nextIx) → d.pair.whole = true) ∧
          d.pair.state = p.state ∧ Dev.Keeps [.pair] [] s.dev d) ∧
        (s.dev.shingleParts x.at_ x.parts = none → s.Runs (.copyReceive ⟨beat, ch, false, [x], false⟩) fun d =>
          d.pair.copied = p.copied ∧ x.num ∈ d.pair.marked ∧ Dev.Keeps [.pair] [] s.dev d)) ∧
      (∀ m : CopyMsg, (m.lost = true ∨ m.tooLong = true) → s.Runs (.copyReceive m) fun d =>
        d.pair = { p with gap := true, whole := false, copyBuf := none } ∧ Dev.Keeps [.pair] [] s.dev d)) ∧
    (p.state ≠ .standby → p.state ≠ .syncing → ¬ (p.handed = true ∧ p.state = .active) → (∀ l, s.Runs (.commandReceive l) fun d => Dev.Keeps [] [] s.dev d) ∧
      (∀ b, s.Runs (.boundaryRecordReceive b) fun d => Dev.Keeps [] [] s.dev d) ∧
      ∀ m, s.Runs (.copyReceive m) fun d => Dev.Keeps [] [] s.dev d)

/-- A rise of ARB_FENCE that has stood for 20 ns reports F188, a unit under way ends in the stomped end of what was
handed over by the end of its CCLK, and PPS_OUT and WHIP_OUT are low; a second rise while it is high, or one that has
not stood so long, does nothing but hold the pin. A switchable domain that has powered for RAMP beats is ON, or
DRAINING if its ON is 0 by then. A draining domain whose drain condition holds is ON again if it was asked for, and
otherwise OFF; a Loft bank loses nothing more, the ports of a SerDes present nothing, an Outbound pipe loses its
classification state and moves its packet numbers ahead, and an Inbound one its probe slot. PWR_INT_STAT shows the
change. A domain in any other state stands. When a rise acts is log entry 17. (R403, R404, R503, R552, R612, R614,
R615, R617, R674.) -/
def Obligations.FenceForcesOutputsAndDomainsSwitch : Prop :=
  ∀ s : State, s.Ready →
    (∀ t ns, 20 ≤ ns → s.dev.pair.fence = false → s.dev.hears 188 → s.Runs (.arbFenceRise ⟨t, ns⟩) fun d => d.pair.fence = true ∧
      Dev.Reports s.dev d 188 ∧ (∀ o, (d.ppsOut o).level = false) ∧ d.whip.outLevel = false ∧ d.outputsOff = true ∧
      d.board.pins.fence = true ∧ d.board.pins.fenceNs = ns ∧
      (∀ p x, p < 64 → tget (s.at t).loft.tx p = some x → x.stomp = none →
        let h := handed ((s.at t).rate p) x.start (s.at t).now
        (h < x.pkt.held → tget d.loft.tx p = some { x with
          stomp := some (stompBytes ((x.pkt.bytes ++ List.replicate (h - x.pkt.bytes.length) 0#8).take h)) }) ∧
        (x.pkt.held ≤ h → tget d.loft.tx p = some x)) ∧
      Dev.Keeps ([.loft, .ports, .time, .board] ++ eventParts) (fatalKeys 188) (s.at t) d) ∧
    (∀ t ns, (s.dev.pair.fence = true ∨ ns < 20) → s.Runs (.arbFenceRise ⟨t, ns⟩) fun d => d.board.pins.fence = true ∧
      d.board.pins.fenceNs = ns ∧ Dev.Keeps [.board] [] (s.at t) d) ∧
    (∀ x, domSwitched x = true →
      let v := s.dev.domain x
      let others := fun (d : Dev) => ∀ y, y ≠ x → d.domain y = s.dev.domain y
      (v.state = .powering → v.since + domRamp x ≤ s.dev.beat → s.dev.domCmd x = true → s.Runs (.domainRampDone x) fun d =>
        d.domain x = ⟨.on, false, s.dev.beat, false⟩ ∧ others d ∧ Dev.Sets s.dev d .PWR_INT_STAT [] 1 ∧
        Dev.Keeps [.power, .coach] [Reg.key .PWR_INT_STAT] s.dev d) ∧
      (v.state = .powering → v.since + domRamp x ≤ s.dev.beat → s.dev.domCmd x = false → s.Runs (.domainRampDone x) fun d =>
        d.domain x = ⟨.draining, false, s.dev.beat, v.anew⟩ ∧ others d ∧ Dev.Sets s.dev d .PWR_INT_STAT [] 1 ∧
        Dev.Keeps [.power] [Reg.key .PWR_INT_STAT] s.dev d) ∧
      (v.state = .draining → s.dev.drained s.dev.beat x = true →
        (v.pendingOn = true → s.Runs (.domainDrainDone x) fun d => d.domain x = ⟨.on, false, s.dev.beat, false⟩ ∧ others d ∧
          Dev.Sets s.dev d .PWR_INT_STAT [] 1 ∧ Dev.Keeps [.power, .coach] [Reg.key .PWR_INT_STAT] s.dev d) ∧
        (v.pendingOn = false → s.Runs (.domainDrainDone x) fun d => d.domain x = ⟨.off, false, s.dev.beat, false⟩ ∧ others d ∧
          Dev.Sets s.dev d .PWR_INT_STAT [] 1 ∧
          (30 ≤ x → Dev.Keeps [.power] [Reg.key .PWR_INT_STAT] s.dev d) ∧
          (13 ≤ x → x ≤ 20 → (∀ p, p < 64 → serdesDom p = x → d.port p = { s.dev.port p with
              pcs := false, fec := false, sig := false, lanes := [], ltDone := false, phNow := 0, phPrev := 0, phUse := 0 }) ∧
            Dev.Keeps [.power, .ports] [Reg.key .PWR_INT_STAT] s.dev d) ∧
          (∀ k, k < 4 → x = 5 + 2 * k → d.dray k = .init ∧ (∀ j, j ≠ k → d.dray j = s.dev.dray j) ∧
            (∀ c, s.dev.pnDray c ≠ k → d.co c = s.dev.co c) ∧
            (∀ c, s.dev.pnDray c = k → tget s.dev.coach.dyn c ≠ none → s.dev.co c ≠ .init →
              (s.dev.co c).hi < (d.co c).hi ∧ (d.co c).lo = 0) ∧
            Dev.Keeps [.power, .coach, .cls]
              (Reg.key .PWR_INT_STAT :: (List.range 8).map fun i => Reg.key .CLS_LCOUNT [8 * k + i]) s.dev d) ∧
          (∀ k, k < 4 → x = 6 + 2 * k → tget d.coach.probe k = none ∧
            (∀ j, j ≠ k → tget d.coach.probe j = tget s.dev.coach.probe j) ∧
            Dev.Keeps [.power, .coach] [Reg.key .PWR_INT_STAT] s.dev d))) ∧
      (v.state = .off ∨ v.state = .on → ∀ c, (c = .domainRampDone x ∨ c = .domainDrainDone x) →
        s.Runs c fun d => Dev.Keeps [] [] s.dev d))

/-- A host flash operation where none runs starts if its address and length are allowed, waits behind a write of the
device's own, and otherwise ends DENIED; while one runs or waits, a start is dropped. A read that ends well puts the
bytes in BOOT_FL_DATA, an erase leaves the 64 KiB at 0xFF, a program leaves each byte as old AND new, and a check
gives its cause; every other byte of the flash stands, but for the life records when an erase of an image slot raises
the count. A read that ends badly gives FLASH_ERR with F016. What an erase or a program that ends badly leaves is log
entry 21. (R596, R597, R598, R611, R622, R623.) -/
def Obligations.FlashOperationsRunAndEnd : Prop :=
  ∀ s : State, s.Ready →
    let addr := s.dev.rd .BOOT_FL_ADDR
    let base := imgBase (1 - s.dev.boot.slot)
    let inOther := fun (n : Nat) => base ≤ addr ∧ addr + n ≤ base + 0x800000
    let f := s.dev.board.flash
    let ok := fun (op len : Nat) => if op = 1 then 1 ≤ len ∧ len ≤ 256 ∧ addr + len ≤ 0x1084000
      else if op = 2 then addr % 65536 = 0 ∧ inOther 65536
      else if op = 3 then 1 ≤ len ∧ len ≤ 256 ∧ inOther len ∧ addr / 256 = (addr + len - 1) / 256
      else addr = 0 ∨ addr = 0x800000
    (s.dev.host.d3hot = false → ∀ (c : Instr) (op len : Nat), len < 512 →
      (c = .flashRead len ∧ op = 1) ∨ (c = .flashErase ∧ len = 0 ∧ op = 2) ∨ (c = .flashProgram len ∧ op = 3) ∨
        (c = .flashCheck ∧ len = 0 ∧ op = 4) →
      (s.dev.boot.flJob = none → s.dev.boot.flWait = none → ok op len → s.Runs c fun d =>
        (∃ j : FlJob, j.op = op ∧ j.addr = addr ∧ j.len = len ∧
          (op = 3 → j.data = ((List.range 64).flatMap fun i => bytesOfNat 4 (s.dev.rd .BOOT_FL_DATA [i])).take len) ∧
          (s.dev.ownWrite = false → d.boot = { s.dev.boot with flJob := some j }) ∧
          (s.dev.ownWrite = true → d.boot = { s.dev.boot with flWait := some j })) ∧ Dev.Keeps [.boot, .offset] [] s.dev d) ∧
      (s.dev.boot.flJob = none → s.dev.boot.flWait = none → ¬ ok op len → s.Runs c fun d => d.boot.flJob = none ∧ d.boot.flRes = 2 ∧
        Dev.Sets s.dev d .BOOT_INT_STAT [] 2 ∧ Dev.Keeps [.boot, .offset] [Reg.key .BOOT_INT_STAT] s.dev d) ∧
      ((s.dev.boot.flJob ≠ none ∨ s.dev.boot.flWait ≠ none) → s.Runs c fun d => Dev.Keeps [.offset] [] s.dev d)) ∧
    (∀ j, s.dev.boot.flJob = some j →
      (j.op = 1 → j.len ≤ 256 → s.Runs (.flashOperationDone true) fun d =>
        ((List.range 64).flatMap fun i => bytesOfNat 4 (d.rd .BOOT_FL_DATA [i])).take j.len = flashRead f j.addr j.len ∧
        d.boot.flJob = none ∧ d.boot.flRes = 1 ∧ Dev.Sets s.dev d .BOOT_INT_STAT [] 2 ∧
        Dev.Keeps [.boot] (Reg.key .BOOT_INT_STAT :: (List.range 64).map fun i => Reg.key .BOOT_FL_DATA [i]) s.dev d) ∧
      (j.op = 1 → s.dev.hears 16 → s.Runs (.flashOperationDone false) fun d => d.boot.flJob = none ∧ d.boot.flRes = 3 ∧
        Dev.Reports s.dev d 16 ∧ Dev.Keeps (.boot :: eventParts) (Reg.key .BOOT_INT_STAT :: eventKeys 16) s.dev d) ∧
      (j.op = 2 → s.Runs (.flashOperationDone true) fun d => d.boot.flJob = none ∧ d.boot.flRes = 1 ∧
        (∀ a, flashByte d.board.flash a = 0xFF#8 ∨ a < j.addr ∨ j.addr + 65536 ≤ a) ∧
        (∀ a, (a < j.addr ∨ j.addr + 65536 ≤ a) → (a < 0x1082000 ∨ 0x1084000 ≤ a ∨ j.addr % 0x800000 ≠ 0) →
          flashByte d.board.flash a = flashByte f a) ∧
        d.flag .BOOT_INT_STAT [] 1 = true ∧
        Dev.Keeps ([.boot, .board] ++ eventParts) (Reg.key .BOOT_INT_STAT :: eventKeys 19) s.dev d) ∧
      (j.op = 3 → s.Runs (.flashOperationDone true) fun d => d.boot.flJob = none ∧ d.boot.flRes = 1 ∧
        (∀ i, i < j.data.length → flashByte d.board.flash (j.addr + i) = flashByte f (j.addr + i) &&& j.data.getD i 0) ∧
        (∀ a, (a < j.addr ∨ j.addr + j.data.length ≤ a) → flashByte d.board.flash a = flashByte f a) ∧
        Dev.Sets s.dev d .BOOT_INT_STAT [] 2 ∧ Dev.Keeps [.boot, .board] [Reg.key .BOOT_INT_STAT] s.dev d) ∧
      (j.op = 4 → s.Runs (.flashOperationDone true) fun d => d.boot.flJob = none ∧
        d.boot.flCause = s.dev.flCheck (j.addr / 0x800000) ∧
        d.boot.flRes = (if s.dev.flCheck (j.addr / 0x800000) = 1 then 1 else 4) ∧ Dev.Sets s.dev d .BOOT_INT_STAT [] 2 ∧
        Dev.Keeps [.boot] [Reg.key .BOOT_INT_STAT] s.dev d)) ∧
    (s.dev.boot.flJob = none → ∀ ok, s.Runs (.flashOperationDone ok) fun d => Dev.Keeps [] [] s.dev d)

/-- TBM_DMA_START with no job under way starts the job that the DMA registers name when its lines lie in a readable
region of an enabled channel; lines outside it end with RANGE, another region with DENIED, and a start while one runs
is dropped and shown. The last line's record goes out with the line's entry bits, and the job ends DONE; one that is
not completed ends PCIE_ERR with F153. TBM_ERROR_INJECT arms a flip of a bit below 72 in its channel; above it nothing
is armed. How lines are numbered and how long a flip stays armed is log entry 45. (R349, R352, R370, R371, R372, R373,
R379, R381, R552.) -/
def Obligations.DmaJobsRunAndErrorsAreArmed : Prop :=
  ∀ s : State, s.Ready →
    let src := s.dev.rd .TBM_DMA_SRC
    let j : DmaJob := ⟨s.dev.rd .TBM_DMA_HADDR_HI * 2 ^ 32 + s.dev.rd .TBM_DMA_HADDR_LO, bits src 31 29, bits src 28 27, bits src 21 0,
      s.dev.fld .TBM_DMA_CNT [] 16 0⟩
    let lines := if j.region = 0 then 524288 else s.dev.dataLines j.chan
    let fits := 1 ≤ j.count ∧ j.count ≤ 65536 ∧ s.dev.chEn j.chan = true ∧ j.first + j.count ≤ lines
    (s.dev.host.d3hot = false →
      (s.dev.tbm.dma = none → j.region < 2 → fits → s.Runs .tbmDmaStart fun d =>
        d.tbm = { s.dev.tbm with dma := some j, dmaDone := 0 } ∧ Dev.Keeps [.tbm, .offset] [] s.dev d) ∧
      (s.dev.tbm.dma = none → j.region < 2 → ¬ fits → s.Runs .tbmDmaStart fun d => d.tbm.dma = none ∧ d.tbm.dmaRes = 2 ∧
        Dev.Sets s.dev d .TBM_INT_STAT [] 8 ∧ Dev.Keeps [.tbm, .offset] [Reg.key .TBM_INT_STAT] s.dev d) ∧
      (s.dev.tbm.dma = none → 2 ≤ j.region → s.Runs .tbmDmaStart fun d => d.tbm.dma = none ∧ d.tbm.dmaRes = 3 ∧
        Dev.Sets s.dev d .TBM_INT_STAT [] 9 ∧ Dev.Keeps [.tbm, .offset] [Reg.key .TBM_INT_STAT] s.dev d) ∧
      (s.dev.tbm.dma ≠ none → s.Runs .tbmDmaStart fun d => d.tbm = s.dev.tbm ∧ Dev.Sets s.dev d .TBM_INT_STAT [] 1 ∧
        Dev.Keeps [.offset] [Reg.key .TBM_INT_STAT] s.dev d) ∧
      (∀ c b, c < 8 → b < 72 → s.Runs (.tbmErrorInject c b) fun d => d.tbm = { s.dev.tbm with armed := tset s.dev.tbm.armed c b } ∧
        Dev.Keeps [.tbm, .offset] [] s.dev d) ∧
      (∀ c b, c < 8 → 72 ≤ b → b < 128 → s.Runs (.tbmErrorInject c b) fun d => Dev.Keeps [.offset] [] s.dev d)) ∧
    (∀ k, s.dev.tbm.dma = some k →
      let a := (if k.region = 0 then 0 else 524288) + k.first + s.dev.tbm.dmaDone
      (s.dev.tbm.dmaDone + 1 = k.count → 0 < s.dev.lowLeft k.chan → s.dev.lineFlips k.chan a = [] →
        s.Runs (.tbmDmaDone true) fun d => d.tbm.dma = none ∧ d.tbm.dmaRes = 1 ∧ d.tbm.dmaDone = k.count ∧
        (∃ b g, .dma (k.addr + 32 * s.dev.tbm.dmaDone) (bytesOfNat 30 (s.dev.lineAt k.chan a).toNat ++ [b, g]) ∈ d.out) ∧
        Dev.Sets s.dev d .TBM_INT_STAT [] 8 ∧
        Dev.Keeps [.tbm] [Reg.key .TBM_INT_STAT, Reg.key .TBM_CH_PEAK [k.chan]] s.dev d) ∧
      (s.dev.hears 153 → s.Runs (.tbmDmaDone false) fun d => d.tbm.dma = none ∧ d.tbm.dmaRes = 4 ∧ Dev.Sets s.dev d .TBM_INT_STAT [] 8 ∧
        Dev.Reports s.dev d 153 ∧ Dev.Keeps (.tbm :: eventParts) (Reg.key .TBM_INT_STAT :: eventKeys 153) s.dev d)) ∧
    (s.dev.tbm.dma = none → ∀ ok, s.Runs (.tbmDmaDone ok) fun d => Dev.Keeps [] [] s.dev d)

/-- Once stage CLOCK has ended, a Block Read of each of the 15 command codes of R646 hands out the byte count and the
value of its item, a Block Read of any other code a count of 0, each with the PEC for a master that reads one byte
more, and any other transaction nothing. Before that, nothing is handed out. None of them changes anything in the
device. The PEC's polynomial and coverage are log entry 96. (R645, R646.) -/
def Obligations.SmbusReadsShowAndChangeNothing : Prop :=
  ∀ (s : State) (c : Instr) (code n v : Nat), s.Ready →
    let val := fun (r : Reg) => s.dev.regValue r []
    (c, code, n, v) ∈ [(Instr.smbGlbId, 0, 4, val .GLB_ID), (.smbBootStat, 1, 4, val .BOOT_STAT), (.smbBeatStat, 2, 4, val .BEAT_STAT),
      (.smbBeatCount, 3, 8, s.dev.clk.count), (.smbPairStat, 4, 4, val .PAIR_STAT), (.smbPstStat, 5, 4, val .PST_STAT),
      (.smbPstFirst, 6, 4, val .PST_FIRST), (.smbPstRstCause, 7, 4, val .PST_RST_CAUSE), (.smbPwrTemp, 8, 4, val .PWR_TEMP),
      (.smbPwrTherm, 9, 4, val .PWR_THERM), (.smbTbmStat, 10, 4, val .TBM_STAT), (.smbRdgStat, 11, 4, val .RDG_STAT),
      (.smbVltStat, 12, 4, val .VLT_STAT), (.smbSerial, 13, 8, s.dev.otp.serial.toNat), (.smbBootImgSeq, 14, 4, val .BOOT_IMG_SEQ)] ∨
    (c = .smbOtherTransaction (some code) ∧ n = 0 ∧ v = 0) →
    let a := 2 * (0x58 + s.dev.host.smbAddr)
    let bytes := BitVec.ofNat 8 n :: bytesOfNat n v
    let pec := BitVec.ofNat 8 (crc8 ([BitVec.ofNat 8 a, BitVec.ofNat 8 code, BitVec.ofNat 8 (a + 1)] ++ bytes))
    (s.dev.boot.clockEnd = true → s.Runs c fun d => .smb bytes pec ∈ d.out ∧ Dev.Keeps [] [] s.dev d) ∧
    (s.dev.boot.clockEnd = false → s.Runs c fun d => (∀ b q, .smb b q ∉ d.out) ∧ Dev.Keeps [] [] s.dev d) ∧
    (s.Runs (.smbOtherTransaction none) fun d => (∀ b q, .smb b q ∉ d.out) ∧ Dev.Keeps [] [] s.dev d)

/-- In OWNER, and until stage CLOCK has read the life cycle (log entry 92), a DBG_REG access hands out zero and counts
in GLB_DBG.DENIED, and DBG_TBL sets DENIED; nothing else changes. In VENDOR and RETURN a debug read of a word hands
out its value as it stands in its CCLK; a debug write of a word with staged fields only and no action of its own at a
commit stores them at once, clears DET with its cause and reports F006; a debug write of a line of the exact-match or
data region stores its entry bits, takes a flip armed for its channel and does the same; a debug read of a line
without errors hands out its entry bits; and an error is armed. The instruction is then DBG_REG or DBG_TBL. (R55, R57,
R352, R370, R373, R381, R649, R651.) -/
def Obligations.DebugAccessFollowsTheLifeCycle : Prop :=
  ∀ s : State, s.Ready → s.dev.clk.cclk < 1199 →
    let debug := s.dev.boot.clockEnd = true ∧ s.dev.vault.lc ≠ .owner
    let e := ({ s.dev with out := [] } : Dev).packBefore
    (¬ debug → ∀ off w v, s.Runs (.dbgReg off w v) fun d => .tdo 0 ∈ d.out ∧ d.jtag.ir = 0x20 ∧
      d.fld .GLB_DBG [] 15 0 = min (s.dev.fld .GLB_DBG [] 15 0 + 1) 0xFFFF ∧ Dev.Keeps [.jtag, .offset] [Reg.key .GLB_DBG] e d) ∧
    (¬ debug → ∀ c l w i v, s.Runs (.dbgTbl c l w i v) fun d => d.jtag.ir = 0x21 ∧ Dev.Sets s.dev d .TBM_INT_STAT [] 1 ∧
      Dev.Keeps [.jtag] [Reg.key .TBM_INT_STAT] s.dev d) ∧
    (debug → ∀ off k r ix, e.resolve (dwordOf off) = some (k, r, ix) → r ≠ .GLB_DBG → r ≠ .EMR_WORD → r ≠ .DRQ_WORD →
      (∀ v, r.row.rc = 0 → hiWord r ix = none → tget e.host.latch k = none → s.Runs (.dbgReg off false v) fun d =>
        .tdo (BitVec.ofNat 64 (e.regValue r ix)) ∈ d.out ∧ d.jtag.ir = 0x20 ∧ Dev.Keeps [.jtag, .offset] [] e d) ∧
      (∀ v : Word, r.row.rw = 0 → r.row.w1c = 0 → r.row.rws ≠ 0 → (∀ a b u, Dev.writeActs a b r ix u = b) →
        (∀ (a : Dev) n, Dev.wordEffect n a k = a) → s.dev.hears 6 → s.Runs (.dbgReg off true v) fun d =>
        wordAt d.words k = mergeBits (wordAt e.words k) r.row.rws (v.toNat &&& r.row.rws) ∧ d.clk.det = false ∧
        d.flag .BEAT_DET_CAUSE [] 4 = true ∧ Dev.Reports s.dev d 6 ∧ d.jtag.ir = 0x20)) ∧
    (debug → ∀ c l, c < 8 → s.dev.chEn c = true → l < 524288 + s.dev.dataLines c → 0 < s.dev.lowLeft c →
      (∀ v, s.dev.hears 6 → s.Runs (.dbgTbl c l true none v) fun d => d.lineAt c l = v.truncate 240 ∧
        (∀ c' l', lineKey c' l' ≠ lineKey c l → d.lineAt c' l' = s.dev.lineAt c' l') ∧
        d.lineFlips c l = (tget s.dev.tbm.armed c).toList ∧ tget d.tbm.armed c = none ∧ d.clk.det = false ∧
        d.flag .BEAT_DET_CAUSE [] 4 = true ∧ Dev.Reports s.dev d 6 ∧
        Dev.Keeps ([.jtag, .tbm] ++ eventParts) (Reg.key .TBM_CH_PEAK [c] :: eventKeys 6) s.dev d) ∧
      (∀ v, s.dev.lineFlips c l = [] → s.Runs (.dbgTbl c l false none v) fun d =>
        .tdoLine ((s.dev.lineAt c l).zeroExtend 288) ∈ d.out ∧ d.jtag.ir = 0x21 ∧
        Dev.Keeps [.jtag, .tbm] [Reg.key .TBM_CH_PEAK [c]] s.dev d) ∧
      (∀ b w v, b < 72 → s.Runs (.dbgTbl c l w (some b) v) fun d => d.tbm = { s.dev.tbm with armed := tset s.dev.tbm.armed c b } ∧
        Dev.Keeps [.jtag, .tbm] [] s.dev d))
end

