-- ==== Sys2Proof/Laws/Tables.lean ====
section
/-! SUPPORT. What the table and word operations do, said once: a read after a write gives the value written, every other
key reads as before, and a table that lists its keys in rising order goes on doing so. -/

namespace Sys2Proof.Machine

variable {α : Type}

theorem tget_tset_self (t : Tab α) (i : Nat) (x : α) : tget (tset t i x) i = some x := by
  induction t with
  | nil => simp [tset, tget]
  | cons e r ih =>
    obtain ⟨k, v⟩ := e
    simp only [tset]
    split
    · simp [tget]
    · split
      · simp [tget]
      · next h _ => simp [tget, h, ih]

theorem tget_tset_ne (t : Tab α) {i j : Nat} (x : α) (h : j ≠ i) : tget (tset t i x) j = tget t j := by
  induction t with
  | nil => simp [tset, tget, Ne.symm h]
  | cons e r ih =>
    obtain ⟨k, v⟩ := e
    simp only [tset]
    split
    · next hk =>
      have hk : k = i := by simpa using hk
      subst hk
      simp [tget, Ne.symm h]
    · split
      · simp [tget, Ne.symm h]
      · simp [tget, ih]

theorem tget_tdel_self (t : Tab α) (i : Nat) : tget (tdel t i) i = none := by
  induction t with
  | nil => rfl
  | cons e r ih =>
    obtain ⟨k, v⟩ := e
    simp only [tdel] at ih ⊢
    by_cases hk : k = i
    · simp [hk, ih]
    · simp [hk, tget, ih]

theorem tget_tdel_ne (t : Tab α) {i j : Nat} (h : j ≠ i) : tget (tdel t i) j = tget t j := by
  induction t with
  | nil => rfl
  | cons e r ih =>
    obtain ⟨k, v⟩ := e
    simp only [tdel] at ih ⊢
    by_cases hk : k = i
    · subst hk; simp [tget, Ne.symm h, ih]
    · simp [hk, tget, ih]

@[simp] theorem tgetD_tput_self [DecidableEq α] (t : Tab α) (d : α) (i : Nat) (x : α) : tgetD (tput t d i x) i d = x := by
  unfold tput tgetD
  split
  · next h => simp [tget_tdel_self, h]
  · simp [tget_tset_self]

theorem tgetD_tput_ne [DecidableEq α] (t : Tab α) (d e : α) {i j : Nat} (x : α) (h : j ≠ i) :
    tgetD (tput t d i x) j e = tgetD t j e := by
  unfold tput tgetD
  split
  · simp [tget_tdel_ne t h]
  · simp [tget_tset_ne t x h]

theorem row_rst_lt (r : Reg) : r.row.rst < 2 ^ 32 := by cases r <;> decide

/-- A reset value fits a word. -/
theorem keyRst_lt (k : Nat) : keyRst k < 2 ^ 32 := by
  unfold keyRst
  split
  · exact row_rst_lt _
  · decide

/-- A stored word reads as its low 32 bits. -/
theorem wordAt_setWord_self (m : Tab Word) (k v : Nat) : wordAt (setWord m k v) k = v % 2 ^ 32 := by
  by_cases e : BitVec.ofNat 32 v = BitVec.ofNat 32 (keyRst k)
  · have h := congrArg BitVec.toNat e
    have := keyRst_lt k
    simp only [BitVec.toNat_ofNat] at h
    simp only [wordAt, setWord, tput, e, if_pos, tget_tdel_self]
    omega
  · simp [wordAt, setWord, tput, e, tget_tset_self]

theorem wordAt_setWord_ne (m : Tab Word) {k j : Nat} (v : Nat) (h : j ≠ k) : wordAt (setWord m k v) j = wordAt m j := by
  by_cases e : BitVec.ofNat 32 v = BitVec.ofNat 32 (keyRst k)
  · simp only [wordAt, setWord, tput, e, if_pos, tget_tdel_ne _ h]
  · simp only [wordAt, setWord, tput, e, if_false, tget_tset_ne _ _ h]

theorem wordAt_lt (m : Tab Word) (k : Nat) : wordAt m k < 2 ^ 32 := by
  unfold wordAt
  split
  · exact BitVec.isLt _
  · exact keyRst_lt k

/-! Rising keys. -/

/-- Every key of a table is above a bound. -/
def keysAbove (b : Nat) (t : Tab α) : Prop := ∀ e ∈ t, b < e.1

theorem rising_cons {e : Nat × α} {r : Tab α} : tabRising (e :: r) = true ↔ keysAbove e.1 r ∧ tabRising r = true := by
  induction r generalizing e with
  | nil => simp [tabRising, keysAbove]
  | cons f r ih =>
    obtain ⟨k, v⟩ := e
    obtain ⟨j, w⟩ := f
    have hs := ih (e := (j, w))
    simp only [tabRising, Bool.and_eq_true, decide_eq_true_eq, keysAbove, List.mem_cons, forall_eq_or_imp] at hs ⊢
    constructor
    · rintro ⟨h, h'⟩
      exact ⟨⟨h, fun e he => Nat.lt_trans h ((hs.1 h').1 e he)⟩, h'⟩
    · rintro ⟨⟨h, _⟩, h'⟩
      exact ⟨h, h'⟩

theorem keysAbove_tset {b i : Nat} {t : Tab α} (x : α) (h : keysAbove b t) (hi : b < i) : keysAbove b (tset t i x) := by
  induction t with
  | nil => simpa [tset, keysAbove] using hi
  | cons e r ih =>
    obtain ⟨k, v⟩ := e
    have hr : keysAbove b r := fun e he => h e (List.mem_cons_of_mem _ he)
    have hk : b < k := h (k, v) (List.mem_cons_self ..)
    simp only [tset]
    split
    · simpa [keysAbove, hi] using hr
    · split
      · simpa [keysAbove, hi, hk] using hr
      · simpa [keysAbove, hk] using ih hr

theorem tabRising_tset {t : Tab α} (i : Nat) (x : α) (h : tabRising t = true) : tabRising (tset t i x) = true := by
  induction t with
  | nil => rfl
  | cons e r ih =>
    obtain ⟨k, v⟩ := e
    obtain ⟨ha, hr⟩ := rising_cons.1 h
    simp only [tset]
    split
    · next e =>
      have e : k = i := by simpa using e
      subst e; exact rising_cons.2 ⟨ha, hr⟩
    · next hne =>
      have hne : k ≠ i := by simpa using hne
      split
      · next hlt => exact rising_cons.2 ⟨by intro e he; rcases List.mem_cons.1 he with rfl | he; exact hlt; exact Nat.lt_trans hlt (ha e he), h⟩
      · next hge => exact rising_cons.2 ⟨keysAbove_tset x ha (by omega), ih hr⟩

theorem tabRising_tdel {t : Tab α} (i : Nat) (h : tabRising t = true) : tabRising (tdel t i) = true := by
  induction t with
  | nil => rfl
  | cons e r ih =>
    obtain ⟨k, v⟩ := e
    obtain ⟨ha, hr⟩ := rising_cons.1 h
    have ih := ih hr
    simp only [tdel] at ih ⊢
    by_cases hk : k = i
    · simpa [hk] using ih
    · simp only [List.filter_cons, bne_iff_ne, ne_eq, hk, not_false_eq_true, ↓reduceIte]
      exact rising_cons.2 ⟨fun e he => ha e (List.mem_filter.1 he).1, ih⟩

/-- A write keeps the canonical form of a table. -/
theorem tabRising_tput [DecidableEq α] {t : Tab α} (d : α) (i : Nat) (x : α) (h : tabRising t = true) :
    tabRising (tput t d i x) = true := by
  unfold tput
  split
  · exact tabRising_tdel i h
  · exact tabRising_tset i x h

/-- Storing a word keeps the canonical form of the register store. -/
theorem tabRising_setWord {m : Tab Word} (k v : Nat) (h : tabRising m = true) : tabRising (setWord m k v) = true :=
  tabRising_tput _ _ _ h

end Sys2Proof.Machine
end

