-- ==== Sys2Proof/Laws/Frames.lean ====
section
/-! SUPPORT. Frames: what the shared operations leave unchanged, said once, up to the end of a command. `Dev.Quiet` is the
strongest of them: nothing but the performance counters, the messages and their bookkeeping has changed. -/

namespace Sys2Proof.Machine

/-! Quiet changes. -/

/-- A device without what counts, and what is sent and kept for messages, on its own. -/
def Dev.erase (d : Dev) : Dev :=
  { d with words := [], pmc := ⟨[], [], [], [], []⟩, set1c := [], addRc := [], out := [],
           host := { d.host with pend := 0, cond := 0, touch := 0 },
           pst := { d.pst with inCclk := [], v4beat := none, v4req := false } }

/-- Only performance counters, outputs and the bookkeeping of messages differ. -/
def Dev.Quiet (a b : Dev) : Prop := (∀ k, ¬ pmcKey k → tget b.words k = tget a.words k) ∧ a.erase = b.erase

theorem Dev.Quiet.refl (a : Dev) : a.Quiet a := ⟨fun _ _ => rfl, rfl⟩

theorem Dev.Quiet.trans {a b c : Dev} (h : a.Quiet b) (h' : b.Quiet c) : a.Quiet c :=
  ⟨fun k hk => (h'.1 k hk).trans (h.1 k hk), h.2.trans h'.2⟩

/-- A fold of quiet steps is quiet. -/
theorem Dev.Quiet.foldl {α : Type} {f : Dev → α → Dev} (hf : ∀ (d : Dev) x, d.Quiet (f d x)) (l : List α) (d : Dev) :
    d.Quiet (l.foldl f d) := by
  induction l generalizing d with
  | nil => exact .refl d
  | cons x r ih => exact (hf d x).trans (ih _)

theorem Dev.Quiet.wordAt {a b : Dev} (h : a.Quiet b) {k : Nat} (hk : ¬ pmcKey k) : wordAt b.words k = wordAt a.words k := by
  unfold Sys2Proof.Machine.wordAt
  rw [h.1 k hk]

theorem Dev.Quiet.rd {a b : Dev} (h : a.Quiet b) {r : Reg} {ix : List Nat} (hk : ¬ pmcKey (r.key ix)) :
    b.rd r ix = a.rd r ix := h.wordAt hk

theorem Dev.Quiet.keeps {a b : Dev} (h : a.Quiet b) : Dev.Keeps [] [] a b := by
  refine ⟨fun p _ => ?_, fun k _ hk => h.wordAt hk⟩
  have e := h.2
  cases p <;> simp only [Part.same] <;>
    first
    | exact (congrArg (fun d : Dev => d.pst) e :)
    | exact (congrArg (fun d : Dev => d.host) e :)
    | exact ⟨(congrArg (fun d : Dev => d.clk.count) e :), (congrArg (fun d : Dev => d.clk.run) e :),
        (congrArg (fun d : Dev => d.clk.pllLock) e :)⟩
    | exact ⟨(congrArg (fun d : Dev => d.clk.cclk) e :), (congrArg (fun d : Dev => d.clk.ticks) e :)⟩
    | exact ⟨(congrArg (fun d : Dev => d.clk.det) e :), (congrArg (fun d : Dev => d.clk.voidAt) e :),
        (congrArg (fun d : Dev => d.clk.voided) e :)⟩
    | exact ⟨(congrArg (fun d : Dev => d.hold) e :), (congrArg (fun d : Dev => d.halt) e :),
        (congrArg (fun d : Dev => d.still) e :)⟩
    | exact (congrArg (fun d : Dev => d.batch) e :)
    | exact (congrArg (fun d : Dev => d.vault) e :)
    | exact (congrArg (fun d : Dev => d.floor) e :)
    | exact (congrArg (fun d : Dev => d.coach) e :)
    | exact (congrArg (fun d : Dev => d.cls) e :)
    | exact (congrArg (fun d : Dev => d.tbm) e :)
    | exact (congrArg (fun d : Dev => d.loft) e :)
    | exact (congrArg (fun d : Dev => d.ports) e :)
    | exact (congrArg (fun d : Dev => d.time) e :)
    | exact (congrArg (fun d : Dev => d.pair) e :)
    | exact (congrArg (fun d : Dev => d.ridge) e :)
    | exact (congrArg (fun d : Dev => d.whip) e :)
    | exact (congrArg (fun d : Dev => d.boot) e :)
    | exact (congrArg (fun d : Dev => d.power) e :)
    | exact (congrArg (fun d : Dev => d.jtag) e :)
    | exact (congrArg (fun d : Dev => d.board) e :)

/-! Frames compose. -/

theorem Dev.Keeps.refl (ps : List Part) (ks : List Nat) (a : Dev) : Dev.Keeps ps ks a a := by
  refine ⟨fun p _ => ?_, fun _ _ _ => rfl⟩
  cases p <;> simp [Part.same]

theorem Part.same_trans {p : Part} {a b c : Dev} (h : p.same a b) (h' : p.same b c) : p.same a c := by
  cases p <;> simp only [Part.same] at h h' ⊢ <;> simp_all

theorem Dev.Keeps.trans {ps : List Part} {ks : List Nat} {a b c : Dev} (h : Dev.Keeps ps ks a b) (h' : Dev.Keeps ps ks b c) :
    Dev.Keeps ps ks a c :=
  ⟨fun p hp => Part.same_trans (h.1 p hp) (h'.1 p hp), fun k hk hn => (h'.2 k hk hn).trans (h.2 k hk hn)⟩

theorem Dev.Keeps.mono {ps qs : List Part} {ks ls : List Nat} {a b : Dev} (h : Dev.Keeps ps ks a b)
    (hp : ∀ p ∈ ps, p ∈ qs) (hk : ∀ k ∈ ks, k ∈ ls) : Dev.Keeps qs ls a b :=
  ⟨fun p hq => h.1 p fun hi => hq (hp p hi), fun k hl hn => h.2 k (fun hi => hl (hk k hi)) hn⟩

theorem Dev.Keeps.foldl {α : Type} {ps : List Part} {ks : List Nat} {f : Dev → α → Dev}
    (hf : ∀ d x, Dev.Keeps ps ks d (f d x)) (l : List α) (d : Dev) : Dev.Keeps ps ks d (l.foldl f d) := by
  induction l generalizing d with
  | nil => exact .refl _ _ d
  | cons x r ih => exact (hf d x).trans (ih _)

/-! Quiet operations. -/

theorem Dev.emit_quiet (d : Dev) (o : Out) : d.Quiet (d.emit o) := ⟨fun _ _ => rfl, rfl⟩

/-- The counters' registers have the counters' keys. -/
theorem pmcKey_cnt {r : Reg} (hr : r = .PMC_CNT_LO ∨ r = .PMC_CNT_HI ∨ r = .PMC_CNT_CFG) {b k : Nat} (hb : b < 20) (hk : k < 8) :
    pmcKey (r.key [b, k]) := by
  rcases hr with rfl | rfl | rfl <;> simp [pmcKey, Reg.key, Reg.row] <;> omega

theorem Dev.wr_quiet (d : Dev) {r : Reg} {ix : List Nat} (v : Nat) (h : pmcKey (r.key ix)) : d.Quiet (d.wr r ix v) := by
  refine ⟨fun k hk => ?_, rfl⟩
  have hne : k ≠ r.key ix := fun e => hk (e ▸ h)
  simp only [Dev.wr, setWord, tput]
  split
  · exact tget_tdel_ne _ hne
  · exact tget_tset_ne _ _ hne

theorem Dev.irq_quiet (d : Dev) {r : Reg} {ix : List Nat} (i : Nat) (h : pmcKey (r.key ix)) : d.Quiet (d.irq r i ix) := by
  refine ⟨fun k hk => ?_, rfl⟩
  have hne : k ≠ r.key ix := fun e => hk (e ▸ h)
  simp only [Dev.irq, Dev.setStat, setWord, tput]
  split
  · exact tget_tdel_ne _ hne
  · exact tget_tset_ne _ _ hne

theorem Dev.pmcAdd_quiet (d : Dev) {b k : Nat} (n : Nat) (hb : b < 20) (hk : k < 8) : d.Quiet (d.pmcAdd b k n) := by
  have lo := fun (d : Dev) v => d.wr_quiet v (pmcKey_cnt (.inl rfl) hb hk)
  have hi := fun (d : Dev) v => d.wr_quiet v (pmcKey_cnt (.inr (.inl rfl)) hb hk)
  have cf := fun (d : Dev) i => d.irq_quiet i (pmcKey_cnt (.inr (.inr rfl)) hb hk)
  have wrap : ∀ (d : Dev) w, d.Quiet { d with pmc := { d.pmc with wrapped := w } } := fun _ _ => ⟨fun _ _ => rfl, rfl⟩
  unfold Dev.pmcAdd
  dsimp only
  split
  · exact (((lo d _).trans (hi _ _)).trans (cf _ _)).trans (wrap _ _)
  · exact (lo d _).trans (hi _ _)

theorem Dev.pmc1_quiet (d : Dev) {b k : Nat} (code : Nat) (slot : Option Nat) (n : Nat) (hb : b < 20) (hk : k < 8) :
    d.Quiet (d.pmc1 b code slot n k) := by
  have seen : ∀ (d : Dev) w, d.Quiet { d with pmc := { d.pmc with inCclk := w } } := fun _ _ => ⟨fun _ _ => rfl, rfl⟩
  unfold Dev.pmc1
  split
  · exact .refl d
  · exact (seen d _).trans (Dev.pmcAdd_quiet _ _ hb hk)

/-- Quiet steps over the members of a list. -/
theorem Dev.Quiet.foldl_mem {α : Type} {f : Dev → α → Dev} (l : List α) (hf : ∀ (d : Dev), ∀ x ∈ l, d.Quiet (f d x)) (d : Dev) :
    d.Quiet (l.foldl f d) := by
  induction l generalizing d with
  | nil => exact .refl d
  | cons x r ih =>
    exact (hf d x (List.mem_cons_self ..)).trans (ih (fun d y hy => hf d y (List.mem_cons_of_mem _ hy)) _)

theorem Dev.pmcEvent_quiet (d : Dev) {b : Nat} (code : Nat) (slot : Option Nat) (n : Nat) (hb : b < 20) :
    d.Quiet (d.pmcEvent b code slot n) :=
  Dev.Quiet.foldl_mem _ (fun d _ hk => d.pmc1_quiet code slot n hb (List.mem_range.1 hk)) d

theorem Dev.newCclk_quiet (d : Dev) : d.Quiet d.newCclk := ⟨fun _ _ => rfl, rfl⟩

/-- The counters that are armed are counters. -/
theorem Dev.pmcArmed_bounds (d : Dev) {x : Nat × Nat} (h : x ∈ d.pmcArmed) : x.1 < 20 ∧ x.2 < 8 := by
  simp only [Dev.pmcArmed, List.mem_filterMap] at h
  obtain ⟨e, _, h⟩ := h
  split at h
  · next c =>
    simp only [Bool.and_eq_true, decide_eq_true_eq] at c
    cases h
    constructor <;> dsimp only <;> omega
  · cases h

theorem Dev.pmcSpread_quiet (d : Dev) {b : Nat} (code n : Nat) (slot : Option Nat) (hb : b < 20) : d.Quiet (d.pmcSpread b code n slot) :=
  Dev.Quiet.foldl_mem _ (fun d _ hk => by
    split
    · exact d.pmcAdd_quiet n hb (List.mem_range.1 hk)
    · exact .refl d) d

theorem Dev.pmcPass_quiet (d : Dev) (n : Nat) : d.Quiet (d.pmcPass n) := by
  unfold Dev.pmcPass
  dsimp only
  refine (d.pmcSpread_quiet 1 (d.blocksIn n) none (by decide)).trans (Dev.Quiet.foldl_mem _ (fun e x hx => ?_) _)
  obtain ⟨hb, hk⟩ := (d.pmcSpread 2 1 (d.blocksIn n)).pmcArmed_bounds hx
  split
  · exact .refl e
  · exact e.pmcAdd_quiet _ hb hk

/-- Passing CCLK change the offset, and quiet things. -/
theorem Dev.tickTo_keeps (d : Dev) (c : Nat) : Dev.Keeps [.offset] [] d (d.tickTo c) := by
  unfold Dev.tickTo
  dsimp only
  split
  · exact .refl _ _ d
  · refine (((d.pmcPass_quiet (min c 1199 - d.clk.cclk)).trans (Dev.newCclk_quiet _)).keeps.mono (by simp) (by simp)).trans ?_
    refine ⟨fun p hp => ?_, fun _ _ _ => rfl⟩
    cases p <;> simp_all [Part.same]

theorem Dev.endAccess_keeps (d : Dev) : Dev.Keeps [.offset] [] d d.endAccess := by
  unfold Dev.endAccess
  split
  · exact (d.tickTo_keeps _).trans ((Dev.newCclk_quiet _).keeps.mono (by simp) (by simp))
  · have seen : d.newCclk.Quiet { d.newCclk with pmc := { d.newCclk.pmc with inCclk := d.pmc.inCclk } } := ⟨fun _ _ => rfl, rfl⟩
    exact (d.newCclk_quiet.trans seen).keeps.mono (by simp) (by simp)

/-! Messages. -/

/-- What a quiet change leaves of the interrupt conditions. -/
theorem Dev.Quiet.src_eq {a b : Dev} (h : a.Quiet b) : b.pst.src = a.pst.src :=
  (congrArg (fun d : Dev => d.pst.src) h.2).symm

theorem Dev.Quiet.rd0 {a b : Dev} (h : a.Quiet b) {r : Reg} {ix : List Nat} (hk : ¬ pmcKey (r.key ix)) :
    b.rd0 r ix = a.rd0 r ix := by
  unfold Dev.rd0 tgetD
  rw [h.1 _ hk]

theorem Dev.Quiet.intHolds {a b : Dev} (h : a.Quiet b) {r e : Reg} {ix : List Nat} (hr : ¬ pmcKey (r.key ix))
    (he : ¬ pmcKey (e.key ix)) : b.intHolds r e ix = a.intHolds r e ix := by
  unfold Dev.intHolds
  rw [h.rd0 hr, h.rd0 he]

/-- Interrupt registers are no counters. -/
theorem Dev.Quiet.vecHolds {a b : Dev} (h : a.Quiet b) (v : Nat) : b.vecHolds v = a.vecHolds v := by
  have np : ∀ {r : Reg} {ix : List Nat}, r.key ix < 0x450000 ∨ 0x452800 ≤ r.key ix → ¬ pmcKey (r.key ix) := by
    intro r ix hk hp
    unfold pmcKey at hp
    omega
  unfold Dev.vecHolds
  split
  case h_5 =>
    rw [h.src_eq]
    congr 1
    funext e
    by_cases he : e.1 < 190
    · rw [h.rd0 (np (.inl (by simp [Reg.key, Reg.row]; omega)))]
    · simp [he]
  case h_17 =>
    split
    · exact h.intHolds (np (by simp [Reg.key, Reg.row]; omega)) (np (by simp [Reg.key, Reg.row]; omega))
    · split
      · exact h.intHolds (np (by simp [Reg.key, Reg.row]; omega)) (np (by simp [Reg.key, Reg.row]; omega))
      · rfl
  all_goals first | rfl | exact h.intHolds (np (by decide)) (np (by decide))

theorem Dev.Quiet.condMask {a b : Dev} (h : a.Quiet b) : b.condMask = a.condMask := by
  unfold Dev.condMask
  simp only [h.vecHolds]

theorem Dev.Quiet.outLost {a b : Dev} (h : a.Quiet b) : b.outLost = a.outLost := by
  have c : b.rd .WHP_CFG [] = a.rd .WHP_CFG [] := h.rd (by unfold pmcKey; decide)
  have p : b.rd .TIM_PPSO_CFG [3] = a.rd .TIM_PPSO_CFG [3] := h.rd (by unfold pmcKey; decide)
  simp only [Dev.outLost, Dev.flag, c, p]

/-- The mask of one of the 52 vectors in use. -/
theorem Dev.Quiet.vecMasked {a b : Dev} (h : a.Quiet b) {v : Nat} (hv : v < 64) : b.vecMasked v = a.vecMasked v := by
  have c : b.rd .MSIX_CTRL [v] = a.rd .MSIX_CTRL [v] :=
    h.rd (by simp [pmcKey, Reg.key, Reg.row]; omega)
  have e := h.2
  have e1 : a.host.funcMask = b.host.funcMask := (congrArg (fun d : Dev => d.host.funcMask) e :)
  have e2 : a.host.msixEn = b.host.msixEn := (congrArg (fun d : Dev => d.host.msixEn) e :)
  have e3 : a.host.bme = b.host.bme := (congrArg (fun d : Dev => d.host.bme) e :)
  have e4 : a.host.d3hot = b.host.d3hot := (congrArg (fun d : Dev => d.host.d3hot) e :)
  simp only [Dev.vecMasked, Dev.flag, c, e1, e2, e3, e4]

theorem Dev.sendVec_quiet (d : Dev) (v : Nat) : d.Quiet (d.sendVec v) := by
  unfold Dev.sendVec
  split
  · exact ⟨fun _ _ => rfl, rfl⟩
  · exact (d.emit_quiet _).trans (Dev.pmcEvent_quiet _ _ _ _ (by decide))

theorem Dev.unmask_quiet (d : Dev) (v : Nat) : d.Quiet (d.unmask v) := by
  unfold Dev.unmask
  have p : ∀ (d : Dev) w, d.Quiet { d with host := { d.host with pend := w } } := fun _ _ => ⟨fun _ _ => rfl, rfl⟩
  split
  · dsimp only
    split
    · exact (p d _).trans (Dev.sendVec_quiet _ _)
    · exact p d _
  · exact .refl d

theorem Dev.messages_quiet (d : Dev) : d.Quiet d.messages := by
  unfold Dev.messages
  have v : ∀ (d : Dev) w, d.Quiet { d with pst := { d.pst with v4req := false, v4beat := w } } := fun _ _ => ⟨fun _ _ => rfl, rfl⟩
  have c : ∀ (d : Dev) w, d.Quiet { d with host := { d.host with cond := w, touch := 0 } } := fun _ _ => ⟨fun _ _ => rfl, rfl⟩
  refine (v d _).trans (Dev.Quiet.trans (Dev.Quiet.foldl (fun d v => ?_) _ _) (c _ _))
  split
  · exact d.sendVec_quiet v
  · exact .refl d

/-- The end of a command is quiet while the condition of F186 is the one last reported. -/
theorem Dev.settle_quiet (d : Dev) (h : (d.src 186).cond = d.outLost) : d.Quiet d.settle := by
  unfold Dev.settle
  have s : d.setCond 186 d.outLost = d := by simp [Dev.setCond, h]
  simp only [s]
  split
  · exact d.messages_quiet
  · exact d.messages_quiet.trans (Dev.Quiet.foldl (fun d v => d.unmask_quiet v) _ _)

end Sys2Proof.Machine
end

