-- ==== Sys2Proof/Laws/Events.lean ====
section
/-! SUPPORT. Frames of the operations that store words, and of an event that is not fatal on its way through the Postilion
(R554-R562): all that it can change. With them, the end of every command settles its interrupt bookkeeping. -/

namespace Sys2Proof.Machine

/-! Words. -/

theorem Dev.words_keeps (d : Dev) (ks : List Nat) (w : Tab Word) (s : Tab Nat) (a : Tab (Nat × Nat))
    (h : ∀ k, k ∉ ks → wordAt w k = wordAt d.words k) : Dev.Keeps [] ks d { d with words := w, set1c := s, addRc := a } := by
  refine ⟨fun p _ => ?_, fun k hk _ => h k hk⟩
  cases p <;> simp [Part.same]

theorem Dev.wr_keeps (d : Dev) (r : Reg) (ix : List Nat) (v : Nat) : Dev.Keeps [] [r.key ix] d (d.wr r ix v) :=
  d.words_keeps _ _ _ _ fun _ hk => wordAt_setWord_ne _ _ (by simpa using hk)

theorem Dev.wrFld_keeps (d : Dev) (r : Reg) (ix : List Nat) (hi lo v : Nat) : Dev.Keeps [] [r.key ix] d (d.wrFld r ix hi lo v) :=
  d.wr_keeps r ix _

theorem Dev.setStat_keeps (d : Dev) (r : Reg) (ix : List Nat) (m : Nat) : Dev.Keeps [] [r.key ix] d (d.setStat r ix m) :=
  d.words_keeps _ _ _ _ fun _ hk => wordAt_setWord_ne _ _ (by simpa using hk)

theorem Dev.irq_keeps (d : Dev) (r : Reg) (i : Nat) (ix : List Nat) : Dev.Keeps [] [r.key ix] d (d.irq r i ix) :=
  d.setStat_keeps r ix _

theorem Dev.count_keeps (d : Dev) (r : Reg) (ix : List Nat) (n : Nat) : Dev.Keeps [] [r.key ix] d (d.count r ix n) :=
  d.words_keeps _ _ _ _ fun _ hk => wordAt_setWord_ne _ _ (by simpa using hk)

theorem Dev.pmcEvent_keeps (d : Dev) {b : Nat} (code : Nat) (slot : Option Nat) (n : Nat) (hb : b < 20) :
    Dev.Keeps [] [] d (d.pmcEvent b code slot n) := (d.pmcEvent_quiet code slot n hb).keeps

/-! One event. -/

theorem Dev.setSrc_keeps (d : Dev) (s : Nat) (x : SrcDyn) : Dev.Keeps [.pst] [] d (d.setSrc s x) := by
  refine ⟨fun p hp => ?_, fun _ _ _ => rfl⟩
  cases p <;> simp_all [Part.same, Dev.setSrc]

theorem Dev.voidDet_keeps (d : Dev) (c : Nat) : Dev.Keeps [.det] detKeys d (d.voidDet c) := by
  unfold Dev.voidDet
  refine ((((d.irq_keeps .BEAT_DET_CAUSE c []).mono (by simp) (by simp [detKeys])).trans
    ((Dev.irq_keeps _ .BEAT_INT_STAT 3 []).mono (by simp) (by simp [detKeys])))).trans (c := _) ?_
  refine ⟨fun p hp => ?_, fun _ _ _ => rfl⟩
  cases p <;> simp_all [Part.same]

theorem Dev.whipTrigger_keeps (d : Dev) (b f : Nat) : Dev.Keeps [.whip, .pair] [] d (d.whipTrigger b f) := by
  refine ⟨fun p hp => ?_, fun _ _ _ => ?_⟩ <;> unfold Dev.whipTrigger <;> dsimp only
  · cases p <;> split <;> (try split) <;> simp_all [Part.same]
  · split <;> (try split) <;> rfl

theorem Dev.whipFault_keeps (d : Dev) (s : Nat) (hi fatal : Bool) : Dev.Keeps [.whip, .pair] [] d (d.whipFault s hi fatal) := by
  unfold Dev.whipFault
  dsimp only
  split
  · exact d.whipTrigger_keeps 2 s
  · exact .refl _ _ d

theorem Dev.pst_keeps (d : Dev) (x : Postilion) : Dev.Keeps [.pst] [] d { d with pst := x } := by
  refine ⟨fun p hp => ?_, fun _ _ _ => rfl⟩
  cases p <;> simp_all [Part.same]

theorem Dev.set1c_keeps (d : Dev) (x : Tab Nat) : Dev.Keeps [] [] d { d with set1c := x } := by
  refine ⟨fun p hp => ?_, fun _ _ _ => rfl⟩
  cases p <;> simp [Part.same]

theorem Dev.Keeps.ite {ps : List Part} {ks : List Nat} {a b c : Dev} {p : Prop} [Decidable p]
    (h : p → Dev.Keeps ps ks a b) (h' : ¬ p → Dev.Keeps ps ks a c) : Dev.Keeps ps ks a (if p then b else c) := by
  split
  · next x => exact h x
  · next x => exact h' x

theorem Dev.react_keeps (d : Dev) (s set : Nat) (fatal : Bool) : Dev.Keeps [.pst, .det] detKeys d (d.react s set fatal) := by
  unfold Dev.react
  extract_lets x d1 was y d2 d3 d4
  have h1 : Dev.Keeps [.pst, .det] detKeys d d1 := (d.setSrc_keeps s _).mono (by simp) (by simp)
  have h2 : Dev.Keeps [.pst, .det] detKeys d d2 := h1.trans ((d1.pst_keeps _).mono (by simp) (by simp))
  clear_value d2
  have h3 : Dev.Keeps [.pst, .det] detKeys d d3 :=
    .ite (fun _ => h2.trans ((d2.set1c_keeps _).mono (by simp) (by simp))) fun _ => h2
  clear_value d3
  have h4 : Dev.Keeps [.pst, .det] detKeys d d4 :=
    .ite (fun _ => h3.trans ((d3.pmcEvent_keeps 3 none 1 (by decide)).mono (by simp) (by simp))) fun _ => h3
  clear_value d4
  exact .ite (fun _ => h4.trans ((d4.voidDet_keeps 3).mono (by simp) (by simp))) fun _ => h4

theorem Dev.classify_keeps (d : Dev) {s sev : Nat} (h : sev ≠ 2) : Dev.Keeps eventParts detKeys d (d.classify s sev) := by
  have r : ∀ (d : Dev) x, Dev.Keeps eventParts detKeys d (d.react s x false) := fun d x =>
    (d.react_keeps s x false).mono (by simp [eventParts]) (by simp)
  have e : ∀ (d : Dev), Dev.Keeps eventParts detKeys d (d.pmcEvent 15 2) := fun d =>
    (d.pmcEvent_keeps 2 none 1 (by decide)).mono (by simp) (by simp)
  have f : ∀ (d : Dev) a b, Dev.Keeps eventParts detKeys d (d.whipFault s a b) := fun d a b =>
    (d.whipFault_keeps s a b).mono (by simp [eventParts]) (by simp)
  have g : ∀ (d : Dev) x, Dev.Keeps eventParts detKeys d (d.setSrc s x) := fun d x =>
    (d.setSrc_keeps s x).mono (by simp [eventParts]) (by simp)
  unfold Dev.classify
  dsimp only
  rw [if_neg (by simpa using h)]
  split
  · split
    · exact (((g d _).trans (r _ _)).trans (e _)).trans (f _ _ _)
    · exact ((g d _).trans (r _ _)).trans (f _ _ _)
  · split <;> split
    · exact (((g d _).trans (r _ _)).trans (e _)).trans (f _ _ _)
    · exact ((g d _).trans (r _ _)).trans (f _ _ _)
    · exact (((g d _).trans (r _ _)).trans (e _)).trans (f _ _ _)
    · exact ((g d _).trans (r _ _)).trans (f _ _ _)

theorem Dev.oneEvent_keeps (d : Dev) {s sev : Nat} (h : sev ≠ 2) : Dev.Keeps eventParts (eventKeys s) d (d.oneEvent sev s) := by
  unfold Dev.oneEvent
  split
  · exact (d.irq_keeps .PST_SRC_STAT 27 [s]).mono (by simp) (by simp [eventKeys])
  · extract_lets x d1
    have h1 : Dev.Keeps eventParts (eventKeys s) d d1 := (d.pst_keeps _).mono (by simp [eventParts]) (by simp)
    have h2 := h1.trans ((d1.irq_keeps .PST_SRC_STAT 31 [s]).mono (by simp) (by simp [eventKeys]))
    have h3 := h2.trans ((Dev.count_keeps _ .PST_SRC_CNT [s] 1).mono (by simp) (by simp [eventKeys]))
    have h4 := h3.trans ((Dev.pmcEvent_keeps _ (b := 15) 1 none 1 (by decide)).mono (by simp) (by simp))
    exact h4.trans ((Dev.classify_keeps _ h).mono (by simp) (by simp [eventKeys, detKeys]))

/-- Everything that events which are not fatal can change. -/
theorem Dev.events_keeps (d : Dev) {s sev : Nat} (n : Nat) (h : sev ≠ 2) :
    Dev.Keeps eventParts (eventKeys s) d (d.events s sev n) := by
  unfold Dev.events
  split
  · exact .refl _ _ d
  · exact Dev.Keeps.foldl (fun d _ => d.oneEvent_keeps h) _ _

theorem Dev.raise_keeps (d : Dev) {s : Nat} (h : srcSeverity s 2 ≠ 2) : Dev.Keeps eventParts (eventKeys s) d (d.raise s) :=
  d.events_keeps 1 h

theorem Dev.setCond_keeps (d : Dev) {s : Nat} (holds : Bool) (h : srcSeverity s 2 ≠ 2) :
    Dev.Keeps eventParts (eventKeys s) d (d.setCond s holds) := by
  unfold Dev.setCond
  split
  · exact .refl _ _ d
  · have g := (d.setSrc_keeps s { d.src s with cond := holds }).mono (qs := eventParts) (ls := eventKeys s) (by simp [eventParts]) (by simp)
    dsimp only
    split
    · exact g.trans (Dev.raise_keeps _ h)
    · exact g

end Sys2Proof.Machine
end

