-- ==== Sys2Proof/Laws/Settle.lean ====
section
/-! SUPPORT. The end of a command settles the interrupt bookkeeping (R635, R636), and what a command leaves when it is run. -/

namespace Sys2Proof.Machine

@[simp] theorem Dev.src_setSrc_self (d : Dev) (s : Nat) (x : SrcDyn) : (d.setSrc s x).src s = x := by
  simp [Dev.src, Dev.setSrc]

theorem Dev.src_setSrc_ne (d : Dev) {s j : Nat} (x : SrcDyn) (h : j ≠ s) : (d.setSrc s x).src j = d.src j := by
  simp only [Dev.src, Dev.setSrc]
  exact tgetD_tput_ne _ _ _ _ h

/-- The conditions of the kind C sources are the same. -/
def Dev.SameConds (a b : Dev) : Prop := ∀ j, (b.src j).cond = (a.src j).cond

theorem Dev.SameConds.trans {a b c : Dev} (h : a.SameConds b) (h' : b.SameConds c) : a.SameConds c :=
  fun j => (h' j).trans (h j)

theorem Dev.SameConds.of_src {a b : Dev} (h : b.pst.src = a.pst.src) : a.SameConds b := by
  intro j
  simp only [Dev.src, h]

theorem Dev.Quiet.sameConds {a b : Dev} (h : a.Quiet b) : a.SameConds b := .of_src h.src_eq

/-- Putting a source's state with its condition as it stands. -/
theorem Dev.setSrc_sameConds (d : Dev) (s : Nat) (x : SrcDyn) (h : x.cond = (d.src s).cond) : d.SameConds (d.setSrc s x) := by
  intro j
  by_cases hj : j = s
  · subst hj; simp [h]
  · rw [d.src_setSrc_ne x hj]

theorem Dev.voidDet_sameConds (d : Dev) (c : Nat) : d.SameConds (d.voidDet c) := .of_src rfl

theorem Dev.whipFault_sameConds (d : Dev) (s : Nat) (hi fatal : Bool) : d.SameConds (d.whipFault s hi fatal) := by
  refine .of_src ?_
  unfold Dev.whipFault Dev.whipTrigger
  dsimp only
  split
  · split <;> (try split) <;> rfl
  · rfl

theorem Dev.pmcEvent_sameConds (d : Dev) {b : Nat} (code : Nat) (slot : Option Nat) (n : Nat) (hb : b < 20) :
    d.SameConds (d.pmcEvent b code slot n) := (d.pmcEvent_quiet code slot n hb).sameConds

theorem Dev.SameConds.ite {a b c : Dev} {p : Prop} [Decidable p] (h : p → a.SameConds b) (h' : ¬ p → a.SameConds c) :
    a.SameConds (if p then b else c) := by
  split
  · next x => exact h x
  · next x => exact h' x

theorem Dev.react_sameConds (d : Dev) (s set : Nat) (fatal : Bool) : d.SameConds (d.react s set fatal) := by
  unfold Dev.react
  extract_lets x d1 was y d2 d3 d4
  have h1 : d.SameConds d1 := d.setSrc_sameConds s _ rfl
  have h2 : d.SameConds d2 := h1.trans (.of_src rfl)
  clear_value d2
  have h3 : d.SameConds d3 := .ite (fun _ => h2.trans (.of_src rfl)) fun _ => h2
  clear_value d3
  have h4 : d.SameConds d4 := .ite (fun _ => h3.trans (d3.pmcEvent_sameConds 3 none 1 (by decide))) fun _ => h3
  clear_value d4
  exact .ite (fun _ => h4.trans (d4.voidDet_sameConds 3)) fun _ => h4

theorem Dev.classify_sameConds (d : Dev) {s sev : Nat} (h : sev ≠ 2) : d.SameConds (d.classify s sev) := by
  have r : ∀ {a b : Dev} x, a.SameConds b → a.SameConds (b.react s x false) := fun x h => h.trans (Dev.react_sameConds _ s x false)
  have e : ∀ {a b : Dev}, a.SameConds b → a.SameConds (b.pmcEvent 15 2) := fun h =>
    h.trans (Dev.pmcEvent_sameConds _ 2 none 1 (by decide))
  have f : ∀ {a b : Dev} x y, a.SameConds b → a.SameConds (b.whipFault s x y) := fun x y h =>
    h.trans (Dev.whipFault_sameConds _ s x y)
  unfold Dev.classify
  extract_lets x hi lo mode n d0 d0' d1 y severe d2
  have g1 : d.SameConds d1 := d.setSrc_sameConds s _ rfl
  have hy : y.cond = (d.src s).cond := by
    dsimp only [y, x]
    split <;> rfl
  have g2 : d.SameConds d2 := d.setSrc_sameConds s _ hy
  clear_value d1 d2
  exact .ite (fun c => absurd (by simpa using c) h) fun _ =>
    .ite (fun _ => .ite (fun _ => f _ _ (e (r _ g1))) fun _ => f _ _ (r _ g1)) fun _ =>
    .ite (fun _ => f _ _ (e (r _ g2))) fun _ => f _ _ (r _ g2)

theorem Dev.oneEvent_sameConds (d : Dev) {s sev : Nat} (h : sev ≠ 2) : d.SameConds (d.oneEvent sev s) := by
  unfold Dev.oneEvent
  split
  · exact .of_src rfl
  · extract_lets x d1
    have h1 : d.SameConds d1 := .of_src rfl
    have h3 : d.SameConds ((d1.irq .PST_SRC_STAT 31 [s]).count .PST_SRC_CNT [s]) := h1.trans (.of_src rfl)
    have h4 := h3.trans (Dev.pmcEvent_sameConds _ (b := 15) 1 none 1 (by decide))
    exact h4.trans (Dev.classify_sameConds _ h)

theorem Dev.raise_sameConds (d : Dev) {s : Nat} (h : srcSeverity s 2 ≠ 2) : d.SameConds (d.raise s) := by
  unfold Dev.raise Dev.events
  split
  · exact .of_src rfl
  · generalize List.range _ = l
    have g : ∀ (l : List Nat) (e : Dev), d.SameConds e → d.SameConds (l.foldl (fun d _ => d.oneEvent (srcSeverity s 2) s) e) := by
      intro l
      induction l with
      | nil => exact fun _ he => he
      | cons x r ih => exact fun e he => ih _ (he.trans (e.oneEvent_sameConds h))
    exact g l d (.of_src rfl)

/-- The condition of a source that is not fatal, once set, is what it was set to. -/
theorem Dev.setCond_cond (d : Dev) {s : Nat} (b : Bool) (h : srcSeverity s 2 ≠ 2) : ((d.setCond s b).src s).cond = b := by
  unfold Dev.setCond
  split
  · next e => simpa using Eq.symm (by simpa using e)
  · dsimp only
    split
    · rw [(Dev.raise_sameConds _ h) s]; simp
    · simp

theorem Dev.Keeps.rd {ps : List Part} {ks : List Nat} {a b : Dev} (h : Dev.Keeps ps ks a b) {r : Reg} {ix : List Nat}
    (hk : r.key ix ∉ ks) (hp : ¬ pmcKey (r.key ix)) : b.rd r ix = a.rd r ix := h.2 _ hk hp

/-- Setting the condition of F186 does not change what it is. -/
theorem Dev.setCond_outLost (d : Dev) (b : Bool) : (d.setCond 186 b).outLost = d.outLost := by
  have k := d.setCond_keeps (s := 186) b (by decide)
  have c : (d.setCond 186 b).rd .WHP_CFG [] = d.rd .WHP_CFG [] := k.rd (by simp [eventKeys, detKeys, Reg.key, Reg.row]) (by unfold pmcKey; decide)
  have p : (d.setCond 186 b).rd .TIM_PPSO_CFG [3] = d.rd .TIM_PPSO_CFG [3] := k.rd (by simp [eventKeys, detKeys, Reg.key, Reg.row]) (by unfold pmcKey; decide)
  simp only [Dev.outLost, Dev.flag, c, p]

/-! Vectors pending. -/

/-- Two devices differ in words and in what the counters keep at most. -/
def Dev.Counted (a b : Dev) : Prop :=
  ∃ w p s r, b = { a with words := w, pmc := p, set1c := s, addRc := r }

theorem Dev.Counted.refl (a : Dev) : a.Counted a := ⟨_, _, _, _, rfl⟩

theorem Dev.Counted.trans {a b c : Dev} (h : a.Counted b) (h' : b.Counted c) : a.Counted c := by
  obtain ⟨_, _, _, _, rfl⟩ := h
  obtain ⟨_, _, _, _, rfl⟩ := h'
  exact ⟨_, _, _, _, rfl⟩

theorem Dev.wr_counted (d : Dev) (r : Reg) (ix : List Nat) (v : Nat) : d.Counted (d.wr r ix v) := ⟨_, _, _, _, rfl⟩
theorem Dev.irq_counted (d : Dev) (r : Reg) (i : Nat) (ix : List Nat) : d.Counted (d.irq r i ix) := ⟨_, _, _, _, rfl⟩
theorem Dev.pmc_counted (d : Dev) (x : Pmc) : d.Counted { d with pmc := x } := ⟨_, _, _, _, rfl⟩

theorem Dev.pmcAdd_counted (d : Dev) (b k n : Nat) : d.Counted (d.pmcAdd b k n) := by
  unfold Dev.pmcAdd
  dsimp only
  split
  · exact (((d.wr_counted _ _ _).trans (Dev.wr_counted _ _ _ _)).trans (Dev.irq_counted _ _ _ _)).trans (Dev.pmc_counted _ _)
  · exact (d.wr_counted _ _ _).trans (Dev.wr_counted _ _ _ _)

theorem Dev.pmc1_counted (d : Dev) (b code : Nat) (slot : Option Nat) (n k : Nat) : d.Counted (d.pmc1 b code slot n k) := by
  unfold Dev.pmc1
  split
  · exact .refl d
  · exact (d.pmc_counted _).trans (Dev.pmcAdd_counted _ _ _ _)

/-- Counting an event changes words and what the counters keep. -/
theorem Dev.pmcEvent_counted (d : Dev) (b code : Nat) (slot : Option Nat) (n : Nat) : d.Counted (d.pmcEvent b code slot n) := by
  unfold Dev.pmcEvent
  generalize List.range 8 = l
  induction l generalizing d with
  | nil => exact .refl d
  | cons k r ih => exact (d.pmc1_counted b code slot n k).trans (ih _)

theorem Dev.Counted.host {a b : Dev} (h : a.Counted b) : b.host = a.host := by
  obtain ⟨_, _, _, _, rfl⟩ := h
  rfl

theorem Dev.Counted.pst {a b : Dev} (h : a.Counted b) : b.pst = a.pst := by
  obtain ⟨_, _, _, _, rfl⟩ := h
  rfl

theorem Dev.pmcEvent_host (d : Dev) (b code : Nat) (slot : Option Nat) (n : Nat) : (d.pmcEvent b code slot n).host = d.host :=
  (d.pmcEvent_counted b code slot n).host

theorem Dev.pmcEvent_pst (d : Dev) (b code : Nat) (slot : Option Nat) (n : Nat) : (d.pmcEvent b code slot n).pst = d.pst :=
  (d.pmcEvent_counted b code slot n).pst

/-- Sending a vector leaves it pending only when it is masked, and no other vector pending that was not. -/
theorem Dev.sendVec_pend (d : Dev) (v w : Nat) (h : bit (d.sendVec v).host.pend w = true) :
    bit d.host.pend w = true ∨ (w = v ∧ d.vecMasked v = true) := by
  unfold Dev.sendVec at h
  split at h
  · next m =>
    dsimp only [bit] at h ⊢
    rw [Nat.testBit_or, Bool.or_eq_true] at h
    rcases h with h | h
    · exact .inl h
    · rw [Nat.testBit_two_pow] at h
      exact .inr ⟨(of_decide_eq_true h).symm, m⟩
  · rw [Dev.pmcEvent_host] at h
    exact .inl h

/-- Looking at a vector: it is pending afterwards only when it is masked. -/
theorem Dev.unmask_pend (d : Dev) (v w : Nat) (hv : v < 52) (h : bit (d.unmask v).host.pend w = true) :
    (w ≠ v ∧ bit d.host.pend w = true) ∨ (w = v ∧ d.vecMasked v = true) := by
  by_cases c : bit d.host.pend v && !d.vecMasked v
  · have c' : bit d.host.pend v = true ∧ d.vecMasked v = false := by simpa using c
    have hs : ∀ w, bit (d.host.pend ^^^ 2 ^ v) w = true → w ≠ v ∧ bit d.host.pend w = true := by
      intro w hw
      dsimp only [bit] at hw c' ⊢
      rw [Nat.testBit_xor, Nat.testBit_two_pow] at hw
      by_cases hwv : w = v
      · subst hwv; simp [c'.1] at hw
      · simp [Ne.symm hwv] at hw
        exact ⟨hwv, hw⟩
    unfold Dev.unmask at h
    rw [if_pos c] at h
    dsimp only at h
    split at h
    · rcases Dev.sendVec_pend _ _ _ h with h | h
      · exact .inl (hs w h)
      · have : d.vecMasked v = true := h.2
        rw [c'.2] at this
        cases this
    · exact .inl (hs w h)
  · unfold Dev.unmask at h
    rw [if_neg c] at h
    by_cases hw : w = v
    · subst hw
      simp [h] at c
      exact .inr ⟨rfl, c⟩
    · exact .inl ⟨hw, h⟩

/-- After looking at the vectors of a list, none of them is pending but masked. -/
theorem Dev.unmaskAll_pend (l : List Nat) (hl : ∀ v ∈ l, v < 52) (d : Dev) {w : Nat} (hw : w < 52)
    (hp : bit d.host.pend w = true → w ∉ l → d.vecMasked w = true)
    (h : bit (l.foldl (fun d v => d.unmask v) d).host.pend w = true) :
    (l.foldl (fun d v => d.unmask v) d).vecMasked w = true := by
  induction l generalizing d with
  | nil => exact hp h (by simp)
  | cons v r ih =>
    refine ih (fun v hv => hl v (List.mem_cons_of_mem _ hv)) (d.unmask v) (fun hb hr => ?_) h
    have q := (d.unmask_quiet v).vecMasked (v := w) (by omega)
    rw [q]
    rcases d.unmask_pend v w (hl v (List.mem_cons_self ..)) hb with ⟨hne, hb⟩ | ⟨rfl, hm⟩
    · exact hp hb (by simp [hne, hr])
    · exact hm

/-- The bookkeeping that messages leave. -/
theorem Dev.messages_host (d : Dev) : d.messages.host.touch = 0 ∧ d.messages.host.cond = d.condMask := ⟨rfl, rfl⟩

theorem Dev.sendVec_pst (d : Dev) (v : Nat) : (d.sendVec v).pst = d.pst := by
  unfold Dev.sendVec
  split
  · rfl
  · rw [Dev.pmcEvent_pst]; rfl

theorem Dev.unmask_pst (d : Dev) (v : Nat) : (d.unmask v).pst = d.pst := by
  unfold Dev.unmask
  split
  · dsimp only
    split
    · rw [Dev.sendVec_pst]
    · rfl
  · rfl

theorem foldl_pst {α : Type} {f : Dev → α → Dev} (hf : ∀ (d : Dev) x, (f d x).pst = d.pst) (l : List α) (d : Dev) :
    (l.foldl f d).pst = d.pst := by
  induction l generalizing d with
  | nil => rfl
  | cons x r ih => rw [List.foldl_cons, ih, hf]

/-- No event is left without its message. -/
def Dev.NoReq (d : Dev) : Prop := d.pst.v4req = false

theorem Dev.NoReq.of_pst {a b : Dev} (h : b.pst = a.pst) (h' : a.NoReq) : b.NoReq := by
  unfold Dev.NoReq at *
  rw [h, h']

theorem Dev.NoReq.host {d : Dev} (h : d.NoReq) (x : HostIf) : Dev.NoReq { d with host := x } := h

theorem Dev.NoReq.start (d : Dev) (x : Option Nat) : Dev.NoReq { d with pst := { d.pst with v4req := false, v4beat := x } } := rfl

theorem Dev.NoReq.foldl {α : Type} {f : Dev → α → Dev} (hf : ∀ (d : Dev) x, d.NoReq → (f d x).NoReq) (l : List α) {d : Dev}
    (h : d.NoReq) : (l.foldl f d).NoReq := by
  induction l generalizing d with
  | nil => exact h
  | cons x r ih => exact ih (hf d x h)

theorem Dev.messages_noReq (d : Dev) : d.messages.NoReq := by
  unfold Dev.messages
  refine Dev.NoReq.host (Dev.NoReq.foldl (fun d v h => ?_) _ (Dev.NoReq.start d _)) _
  split
  · exact .of_pst (d.sendVec_pst v) h
  · exact h

/-- Looking at vectors changes neither what was touched nor the conditions seen last. -/
theorem Dev.unmask_host (d : Dev) (v : Nat) :
    (d.unmask v).host.touch = d.host.touch ∧ (d.unmask v).host.cond = d.host.cond := by
  unfold Dev.unmask
  split
  · dsimp only
    split
    · unfold Dev.sendVec
      split
      · exact ⟨rfl, rfl⟩
      · rw [Dev.pmcEvent_host]; exact ⟨rfl, rfl⟩
    · exact ⟨rfl, rfl⟩
  · exact ⟨rfl, rfl⟩

theorem Dev.unmaskAll_host (l : List Nat) (d : Dev) :
    (l.foldl (fun d v => d.unmask v) d).host.touch = d.host.touch ∧
    (l.foldl (fun d v => d.unmask v) d).host.cond = d.host.cond := by
  induction l generalizing d with
  | nil => exact ⟨rfl, rfl⟩
  | cons v r ih => exact ⟨(ih _).1.trans (d.unmask_host v).1, (ih _).2.trans (d.unmask_host v).2⟩

/-- Looking at every vector settles a device in which all else is settled. -/
theorem Dev.unmaskAll_settled {e : Dev} (touch : e.host.touch = 0) (v4 : e.pst.v4req = false)
    (cond : e.host.cond = e.condMask) (lost : (e.src 186).cond = e.outLost) :
    Dev.Settled (if e.host.pend == 0 then e else (List.range 52).foldl (fun d v => d.unmask v) e) := by
  split
  · next z =>
    have z : e.host.pend = 0 := by simpa using z
    exact ⟨touch, v4, cond, fun v _ h => by simp [z, bit] at h, lost⟩
  · have q : e.Quiet ((List.range 52).foldl (fun d v => d.unmask v) e) := Dev.Quiet.foldl (fun d v => d.unmask_quiet v) _ _
    have h := e.unmaskAll_host (List.range 52)
    refine ⟨h.1.trans touch, ?_, ?_, fun v hv hb => ?_, ?_⟩
    · rw [foldl_pst fun d v => d.unmask_pst v]; exact v4
    · rw [h.2, q.condMask, cond]
    · exact Dev.unmaskAll_pend _ (by simp) e hv (fun _ hn => absurd (List.mem_range.2 hv) hn) hb
    · rw [q.sameConds 186, q.outLost, lost]

/-- The end of a command settles the bookkeeping, whatever the command did. -/
theorem Dev.settle_settled (d : Dev) : d.settle.Settled := by
  have qm := Dev.messages_quiet (d.setCond 186 d.outLost)
  have h := Dev.messages_host (d.setCond 186 d.outLost)
  refine Dev.unmaskAll_settled h.1 (Dev.messages_noReq _) ?_ ?_
  · rw [h.2, qm.condMask]
  · rw [qm.sameConds 186, qm.outLost, d.setCond_cond d.outLost (by decide), d.setCond_outLost]

end Sys2Proof.Machine
end

