-- ==== Sys2Proof/Laws/Commands.lean ====
section
/-! SUPPORT. How a command runs, said once: the device that takes it, and the quiet end after what it does. -/

namespace Sys2Proof.Machine

/-- A command of a device that is not in reset answers the next state, with the rest of the queue untouched. -/
theorem onDev_awake {s : State} (h : s.dev.inReset = false) (f : Dev → Dev) :
    onDev s f = .next { s with dev := (f { s.dev with out := [] }).settle } := by
  simp [onDev, Dev.runCmd, h]

/-- A command of a device that is in reset changes its outputs only. -/
theorem onDev_held {s : State} (h : s.dev.inReset = true) (f : Dev → Dev) :
    onDev s f = .next { s with dev := { s.dev with out := [] } } := by
  simp [onDev, Dev.runCmd, h]

/-- Outputs decide nothing about the bookkeeping. -/
theorem Dev.clearOut_quiet (d : Dev) : d.Quiet { d with out := [] } := ⟨fun _ _ => rfl, rfl⟩

theorem Dev.Keeps.outLost {ps : List Part} {ks : List Nat} {a b : Dev} (h : Dev.Keeps ps ks a b)
    (hw : Reg.key .WHP_CFG ∉ ks) (hp : Reg.key .TIM_PPSO_CFG [3] ∉ ks) : b.outLost = a.outLost := by
  have c : b.rd .WHP_CFG [] = a.rd .WHP_CFG [] := h.rd hw (by unfold pmcKey; decide)
  have p : b.rd .TIM_PPSO_CFG [3] = a.rd .TIM_PPSO_CFG [3] := h.rd hp (by unfold pmcKey; decide)
  simp only [Dev.outLost, Dev.flag, c, p]

/-- What keeps the Postilion keeps the conditions of its sources. -/
theorem Dev.Keeps.sameConds {ps : List Part} {ks : List Nat} {a b : Dev} (h : Dev.Keeps ps ks a b) (hp : Part.pst ∉ ps) :
    a.SameConds b :=
  .of_src (congrArg Postilion.src (h.1 .pst hp) :).symm

/-- A command whose end is quiet: P need only be shown for what its effect leaves, up to quiet changes. -/
theorem State.Runs.of_quiet {s : State} {c : Instr} {f : Dev → Dev} {P : Dev → Prop} (he : exec c s = onDev s f)
    (awake : s.dev.inReset = false)
    (lost : ((f { s.dev with out := [] }).src 186).cond = (f { s.dev with out := [] }).outLost)
    (hP : ∀ t, (f { s.dev with out := [] }).Quiet t → P t) : s.Runs c P :=
  ⟨_, he.trans (onDev_awake awake f), rfl, hP _ (Dev.settle_quiet _ lost)⟩

/-- The condition of F186 stays the one last reported where neither sources' conditions nor the two settings change. -/
theorem State.Ready.lost {s : State} (h : s.Ready) {ps : List Part} {ks : List Nat} {d : Dev}
    (hk : Dev.Keeps ps ks { s.dev with out := [] } d) (hc : ({ s.dev with out := [] } : Dev).SameConds d)
    (hw : Reg.key .WHP_CFG ∉ ks) (hp : Reg.key .TIM_PPSO_CFG [3] ∉ ks) : (d.src 186).cond = d.outLost := by
  rw [hc 186, hk.outLost hw hp]
  exact h.settled.lost

/-- The frame of a command is the frame of its effect. -/
theorem Dev.Keeps.after {ps : List Part} {ks : List Nat} {d e t : Dev} (h : Dev.Keeps ps ks { d with out := [] } e)
    (q : e.Quiet t) : Dev.Keeps ps ks d t :=
  ((Dev.clearOut_quiet d).keeps.mono (by simp) (by simp)).trans (h.trans (q.keeps.mono (by simp) (by simp)))

end Sys2Proof.Machine
end

