-- ==== Sys2Proof/Laws/Memory.lean ====
section
/-! SUPPORT. The flash keeps its canonical form under every operation on it, and has it at reset. -/

namespace Sys2Proof.Machine

variable {α : Type}

/-- Leaving cells out keeps the keys rising. -/
theorem tabRising_filter {t : Tab α} (p : Nat × α → Bool) (h : tabRising t = true) : tabRising (t.filter p) = true := by
  induction t with
  | nil => rfl
  | cons e r ih =>
    obtain ⟨ha, hr⟩ := rising_cons.1 h
    by_cases hp : p e = true
    · rw [List.filter_cons_of_pos hp]
      exact rising_cons.2 ⟨fun x hx => ha x (List.mem_filter.1 hx).1, ih hr⟩
    · rw [List.filter_cons_of_neg hp]; exact ih hr

theorem mem_tset {t : Tab α} {i : Nat} {x : α} {e : Nat × α} (h : e ∈ tset t i x) : e = (i, x) ∨ e ∈ t := by
  induction t with
  | nil => simpa [tset] using h
  | cons c r ih =>
    obtain ⟨k, v⟩ := c
    simp only [tset] at h
    split at h
    · rcases List.mem_cons.1 h with h | h
      · exact .inl h
      · exact .inr (List.mem_cons_of_mem _ h)
    · split at h
      · rcases List.mem_cons.1 h with h | h
        · exact .inl h
        · exact .inr h
      · rcases List.mem_cons.1 h with h | h
        · exact .inr (h ▸ List.mem_cons_self ..)
        · exact (ih h).imp id (List.mem_cons_of_mem _)

/-- Writing one cell keeps the form. -/
theorem Memory.wf_put {f : Tab Byte} (a : Nat) (b : Byte) (h : Memory.wf f) : Memory.wf (tput f 0xFF#8 a b) := by
  refine ⟨tabRising_tput _ _ _ h.1, fun c hc => ?_⟩
  unfold tput at hc
  split at hc
  · exact h.2 c (List.mem_filter.1 hc).1
  · next hb =>
    rcases mem_tset hc with rfl | hc
    · exact hb
    · exact h.2 c hc

theorem Memory.wf_filter {f : Tab Byte} (p : Nat × Byte → Bool) (h : Memory.wf f) : Memory.wf (f.filter p) :=
  ⟨tabRising_filter p h.1, fun c hc => h.2 c (List.mem_filter.1 hc).1⟩

theorem Memory.wf_erase {f : Tab Byte} (a n : Nat) (h : Memory.wf f) : Memory.wf (flashEraseAt f a n) := wf_filter _ h

theorem Memory.wf_program {f : Tab Byte} (a : Nat) (b : Bytes) (h : Memory.wf f) : Memory.wf (flashProgramAt f a b) := by
  unfold flashProgramAt
  generalize List.zip (List.range b.length) b = l
  induction l generalizing f with
  | nil => exact h
  | cons x r ih => exact ih (wf_put _ _ h)

/-- Two tables, the keys of one all below those of the other, make one. -/
theorem tabRising_append {s t : Tab α} (hs : tabRising s = true) (ht : tabRising t = true)
    (h : ∀ x ∈ s, ∀ y ∈ t, x.1 < y.1) : tabRising (s ++ t) = true := by
  induction s with
  | nil => exact ht
  | cons e r ih =>
    obtain ⟨ha, hr⟩ := rising_cons.1 hs
    refine rising_cons.2 ⟨fun x hx => ?_, ih hr fun x hx => h x (List.mem_cons_of_mem _ hx)⟩
    rcases List.mem_append.1 hx with hx | hx
    · exact ha x hx
    · exact h e (List.mem_cons_self ..) x hx

/-- Cells listed in address order from `a` on. -/
theorem rising_cells (a k : Nat) (b : Bytes) :
    tabRising ((List.zip (List.range' k b.length) b).filterMap fun (x : Nat × Byte) =>
      if x.2 == 0xFF#8 then none else some (a + x.1, x.2)) = true := by
  induction b generalizing k with
  | nil => rfl
  | cons v r ih =>
    simp only [List.length_cons, List.range'_succ, List.zip_cons_cons]
    by_cases hv : v = 0xFF#8
    · rw [List.filterMap_cons_none (by simp [hv])]; exact ih (k + 1)
    · rw [List.filterMap_cons_some (b := (a + k, v)) (by simp [hv])]
      refine rising_cons.2 ⟨fun x hx => ?_, ih (k + 1)⟩
      obtain ⟨y, hy, hxy⟩ := List.mem_filterMap.1 hx
      have hm := List.mem_range'_1.1 (List.of_mem_zip hy).1
      split at hxy
      · cases hxy
      · cases hxy; simp only; omega

/-- What a failed erase or program leaves has the form. -/
theorem Dev.scramble_wf (d : Dev) (a n : Nat) (h : Memory.wf d.board.flash) : Memory.wf (d.scramble a n).board.flash := by
  have hn : (freeBytes d.fresh n).length = n := by simp [freeBytes]
  have hr : List.range n = List.range' 0 (freeBytes d.fresh n).length := by rw [hn, List.range_eq_range']
  have hin : ∀ x ∈ ((List.zip (List.range n) (freeBytes d.fresh n)).filterMap fun (x : Nat × Byte) =>
      if x.2 == 0xFF#8 then none else some (a + x.1, x.2)), a ≤ x.1 ∧ x.1 < a + n ∧ x.2 ≠ 0xFF#8 := by
    intro x hx
    obtain ⟨y, hy, hxy⟩ := List.mem_filterMap.1 hx
    have hm := List.mem_range.1 (List.of_mem_zip hy).1
    split at hxy
    · cases hxy
    · next hb => cases hxy; exact ⟨by simp only; omega, by simp only; omega, by simpa using hb⟩
  have hlo : ∀ x ∈ d.board.flash.filter (fun c => decide (c.1 < a)), x.1 < a := fun x hx => by simpa using (List.mem_filter.1 hx).2
  have hhi : ∀ x ∈ d.board.flash.filter (fun c => decide (a + n ≤ c.1)), a + n ≤ x.1 := fun x hx => by
    simpa using (List.mem_filter.1 hx).2
  simp only [Dev.scramble, Dev.setFlash]
  refine ⟨tabRising_append (tabRising_append (tabRising_filter _ h.1) (by rw [hr]; exact rising_cells a 0 _) ?_)
    (tabRising_filter _ h.1) ?_, fun c hc => ?_⟩
  · intro x hx y hy
    exact Nat.lt_of_lt_of_le (hlo x hx) (hin y hy).1
  · intro x hx y hy
    have := hhi y hy
    rcases List.mem_append.1 hx with hx | hx
    · have := hlo x hx; omega
    · have := (hin x hx).2.1; omega
  · rcases List.mem_append.1 hc with hc | hc
    · rcases List.mem_append.1 hc with hc | hc
      · exact h.2 c (List.mem_filter.1 hc).1
      · exact (hin c hc).2.2
    · exact h.2 c (List.mem_filter.1 hc).1

/-- The lifetime count's writes keep the form (R598). -/
theorem Dev.lifeRise_wf (d : Dev) (h : Memory.wf d.board.flash) :
    Memory.wf (match (lifeCount d.board.flash).1 with
      | none => lifeWrite d.board.flash 0 1 ((lifeCount d.board.flash).2 + 1)
      | some i => if tallyZeros d.board.flash i < 32512 then tallyProgram d.board.flash i
          else lifeWrite d.board.flash (1 - i) (((lifeRecord d.board.flash i).getD (0, 0)).1 + 1)
            ((lifeCount d.board.flash).2 + 1)) := by
  split
  · exact Memory.wf_program _ _ (Memory.wf_erase _ _ h)
  · split
    · exact Memory.wf_program _ _ h
    · exact Memory.wf_program _ _ (Memory.wf_erase _ _ h)

/-- The flash has the form at reset. -/
theorem State.reset_flash_wf : Memory.wf State.reset.dev.board.flash := ⟨rfl, fun _ h => by cases h⟩

end Sys2Proof.Machine
end

