-- ==== Sys2Proof/Laws/State.lean ====
section
/-! SUPPORT. What each named update of the device does to each of its fields: one lemma per field per update, so that no
proof unfolds a record update. -/

namespace Sys2Proof.Machine

variable (d : Dev)

@[simp] theorem Dev.wr_words (r : Reg) (ix : List Nat) (v : Nat) : (d.wr r ix v).words = setWord d.words (r.key ix) v := rfl
@[simp] theorem Dev.wr_clk (r : Reg) (ix : List Nat) (v : Nat) : (d.wr r ix v).clk = d.clk := rfl
@[simp] theorem Dev.wr_batch (r : Reg) (ix : List Nat) (v : Nat) : (d.wr r ix v).batch = d.batch := rfl
@[simp] theorem Dev.wr_vault (r : Reg) (ix : List Nat) (v : Nat) : (d.wr r ix v).vault = d.vault := rfl
@[simp] theorem Dev.wr_floor (r : Reg) (ix : List Nat) (v : Nat) : (d.wr r ix v).floor = d.floor := rfl
@[simp] theorem Dev.wr_coach (r : Reg) (ix : List Nat) (v : Nat) : (d.wr r ix v).coach = d.coach := rfl
@[simp] theorem Dev.wr_cls (r : Reg) (ix : List Nat) (v : Nat) : (d.wr r ix v).cls = d.cls := rfl
@[simp] theorem Dev.wr_tbm (r : Reg) (ix : List Nat) (v : Nat) : (d.wr r ix v).tbm = d.tbm := rfl
@[simp] theorem Dev.wr_loft (r : Reg) (ix : List Nat) (v : Nat) : (d.wr r ix v).loft = d.loft := rfl
@[simp] theorem Dev.wr_ports (r : Reg) (ix : List Nat) (v : Nat) : (d.wr r ix v).ports = d.ports := rfl
@[simp] theorem Dev.wr_time (r : Reg) (ix : List Nat) (v : Nat) : (d.wr r ix v).time = d.time := rfl
@[simp] theorem Dev.wr_pair (r : Reg) (ix : List Nat) (v : Nat) : (d.wr r ix v).pair = d.pair := rfl
@[simp] theorem Dev.wr_ridge (r : Reg) (ix : List Nat) (v : Nat) : (d.wr r ix v).ridge = d.ridge := rfl
@[simp] theorem Dev.wr_pst (r : Reg) (ix : List Nat) (v : Nat) : (d.wr r ix v).pst = d.pst := rfl
@[simp] theorem Dev.wr_whip (r : Reg) (ix : List Nat) (v : Nat) : (d.wr r ix v).whip = d.whip := rfl
@[simp] theorem Dev.wr_pmc (r : Reg) (ix : List Nat) (v : Nat) : (d.wr r ix v).pmc = d.pmc := rfl
@[simp] theorem Dev.wr_boot (r : Reg) (ix : List Nat) (v : Nat) : (d.wr r ix v).boot = d.boot := rfl
@[simp] theorem Dev.wr_power (r : Reg) (ix : List Nat) (v : Nat) : (d.wr r ix v).power = d.power := rfl
@[simp] theorem Dev.wr_host (r : Reg) (ix : List Nat) (v : Nat) : (d.wr r ix v).host = d.host := rfl
@[simp] theorem Dev.wr_jtag (r : Reg) (ix : List Nat) (v : Nat) : (d.wr r ix v).jtag = d.jtag := rfl
@[simp] theorem Dev.wr_board (r : Reg) (ix : List Nat) (v : Nat) : (d.wr r ix v).board = d.board := rfl
@[simp] theorem Dev.wr_hold (r : Reg) (ix : List Nat) (v : Nat) : (d.wr r ix v).hold = d.hold := rfl
@[simp] theorem Dev.wr_halt (r : Reg) (ix : List Nat) (v : Nat) : (d.wr r ix v).halt = d.halt := rfl
@[simp] theorem Dev.wr_still (r : Reg) (ix : List Nat) (v : Nat) : (d.wr r ix v).still = d.still := rfl
@[simp] theorem Dev.wr_set1c (r : Reg) (ix : List Nat) (v : Nat) : (d.wr r ix v).set1c = d.set1c := rfl
@[simp] theorem Dev.wr_addRc (r : Reg) (ix : List Nat) (v : Nat) : (d.wr r ix v).addRc = d.addRc := rfl
@[simp] theorem Dev.wr_fresh (r : Reg) (ix : List Nat) (v : Nat) : (d.wr r ix v).fresh = d.fresh := rfl
@[simp] theorem Dev.wr_out (r : Reg) (ix : List Nat) (v : Nat) : (d.wr r ix v).out = d.out := rfl

@[simp] theorem Dev.setStat_words (r : Reg) (ix : List Nat) (m : Nat) : (d.setStat r ix m).words = setWord d.words (r.key ix) (wordAt d.words (r.key ix) ||| m) := rfl
@[simp] theorem Dev.setStat_clk (r : Reg) (ix : List Nat) (m : Nat) : (d.setStat r ix m).clk = d.clk := rfl
@[simp] theorem Dev.setStat_batch (r : Reg) (ix : List Nat) (m : Nat) : (d.setStat r ix m).batch = d.batch := rfl
@[simp] theorem Dev.setStat_vault (r : Reg) (ix : List Nat) (m : Nat) : (d.setStat r ix m).vault = d.vault := rfl
@[simp] theorem Dev.setStat_floor (r : Reg) (ix : List Nat) (m : Nat) : (d.setStat r ix m).floor = d.floor := rfl
@[simp] theorem Dev.setStat_coach (r : Reg) (ix : List Nat) (m : Nat) : (d.setStat r ix m).coach = d.coach := rfl
@[simp] theorem Dev.setStat_cls (r : Reg) (ix : List Nat) (m : Nat) : (d.setStat r ix m).cls = d.cls := rfl
@[simp] theorem Dev.setStat_tbm (r : Reg) (ix : List Nat) (m : Nat) : (d.setStat r ix m).tbm = d.tbm := rfl
@[simp] theorem Dev.setStat_loft (r : Reg) (ix : List Nat) (m : Nat) : (d.setStat r ix m).loft = d.loft := rfl
@[simp] theorem Dev.setStat_ports (r : Reg) (ix : List Nat) (m : Nat) : (d.setStat r ix m).ports = d.ports := rfl
@[simp] theorem Dev.setStat_time (r : Reg) (ix : List Nat) (m : Nat) : (d.setStat r ix m).time = d.time := rfl
@[simp] theorem Dev.setStat_pair (r : Reg) (ix : List Nat) (m : Nat) : (d.setStat r ix m).pair = d.pair := rfl
@[simp] theorem Dev.setStat_ridge (r : Reg) (ix : List Nat) (m : Nat) : (d.setStat r ix m).ridge = d.ridge := rfl
@[simp] theorem Dev.setStat_pst (r : Reg) (ix : List Nat) (m : Nat) : (d.setStat r ix m).pst = d.pst := rfl
@[simp] theorem Dev.setStat_whip (r : Reg) (ix : List Nat) (m : Nat) : (d.setStat r ix m).whip = d.whip := rfl
@[simp] theorem Dev.setStat_pmc (r : Reg) (ix : List Nat) (m : Nat) : (d.setStat r ix m).pmc = d.pmc := rfl
@[simp] theorem Dev.setStat_boot (r : Reg) (ix : List Nat) (m : Nat) : (d.setStat r ix m).boot = d.boot := rfl
@[simp] theorem Dev.setStat_power (r : Reg) (ix : List Nat) (m : Nat) : (d.setStat r ix m).power = d.power := rfl
@[simp] theorem Dev.setStat_host (r : Reg) (ix : List Nat) (m : Nat) : (d.setStat r ix m).host = d.host := rfl
@[simp] theorem Dev.setStat_jtag (r : Reg) (ix : List Nat) (m : Nat) : (d.setStat r ix m).jtag = d.jtag := rfl
@[simp] theorem Dev.setStat_board (r : Reg) (ix : List Nat) (m : Nat) : (d.setStat r ix m).board = d.board := rfl
@[simp] theorem Dev.setStat_hold (r : Reg) (ix : List Nat) (m : Nat) : (d.setStat r ix m).hold = d.hold := rfl
@[simp] theorem Dev.setStat_halt (r : Reg) (ix : List Nat) (m : Nat) : (d.setStat r ix m).halt = d.halt := rfl
@[simp] theorem Dev.setStat_still (r : Reg) (ix : List Nat) (m : Nat) : (d.setStat r ix m).still = d.still := rfl
@[simp] theorem Dev.setStat_addRc (r : Reg) (ix : List Nat) (m : Nat) : (d.setStat r ix m).addRc = d.addRc := rfl
@[simp] theorem Dev.setStat_fresh (r : Reg) (ix : List Nat) (m : Nat) : (d.setStat r ix m).fresh = d.fresh := rfl
@[simp] theorem Dev.setStat_out (r : Reg) (ix : List Nat) (m : Nat) : (d.setStat r ix m).out = d.out := rfl

/-- A count changes words and the counts of its CCLK only. -/
theorem Dev.count_form (r : Reg) (ix : List Nat) (n : Nat) :
    ∃ w a, d.count r ix n = { d with words := w, addRc := a } := ⟨_, _, rfl⟩

@[simp] theorem Dev.count_clk (r : Reg) (ix : List Nat) (n : Nat) : (d.count r ix n).clk = d.clk := by obtain ⟨_, _, h⟩ := d.count_form r ix n; rw [h]
@[simp] theorem Dev.count_batch (r : Reg) (ix : List Nat) (n : Nat) : (d.count r ix n).batch = d.batch := by obtain ⟨_, _, h⟩ := d.count_form r ix n; rw [h]
@[simp] theorem Dev.count_vault (r : Reg) (ix : List Nat) (n : Nat) : (d.count r ix n).vault = d.vault := by obtain ⟨_, _, h⟩ := d.count_form r ix n; rw [h]
@[simp] theorem Dev.count_floor (r : Reg) (ix : List Nat) (n : Nat) : (d.count r ix n).floor = d.floor := by obtain ⟨_, _, h⟩ := d.count_form r ix n; rw [h]
@[simp] theorem Dev.count_coach (r : Reg) (ix : List Nat) (n : Nat) : (d.count r ix n).coach = d.coach := by obtain ⟨_, _, h⟩ := d.count_form r ix n; rw [h]
@[simp] theorem Dev.count_cls (r : Reg) (ix : List Nat) (n : Nat) : (d.count r ix n).cls = d.cls := by obtain ⟨_, _, h⟩ := d.count_form r ix n; rw [h]
@[simp] theorem Dev.count_tbm (r : Reg) (ix : List Nat) (n : Nat) : (d.count r ix n).tbm = d.tbm := by obtain ⟨_, _, h⟩ := d.count_form r ix n; rw [h]
@[simp] theorem Dev.count_loft (r : Reg) (ix : List Nat) (n : Nat) : (d.count r ix n).loft = d.loft := by obtain ⟨_, _, h⟩ := d.count_form r ix n; rw [h]
@[simp] theorem Dev.count_ports (r : Reg) (ix : List Nat) (n : Nat) : (d.count r ix n).ports = d.ports := by obtain ⟨_, _, h⟩ := d.count_form r ix n; rw [h]
@[simp] theorem Dev.count_time (r : Reg) (ix : List Nat) (n : Nat) : (d.count r ix n).time = d.time := by obtain ⟨_, _, h⟩ := d.count_form r ix n; rw [h]
@[simp] theorem Dev.count_pair (r : Reg) (ix : List Nat) (n : Nat) : (d.count r ix n).pair = d.pair := by obtain ⟨_, _, h⟩ := d.count_form r ix n; rw [h]
@[simp] theorem Dev.count_ridge (r : Reg) (ix : List Nat) (n : Nat) : (d.count r ix n).ridge = d.ridge := by obtain ⟨_, _, h⟩ := d.count_form r ix n; rw [h]
@[simp] theorem Dev.count_pst (r : Reg) (ix : List Nat) (n : Nat) : (d.count r ix n).pst = d.pst := by obtain ⟨_, _, h⟩ := d.count_form r ix n; rw [h]
@[simp] theorem Dev.count_whip (r : Reg) (ix : List Nat) (n : Nat) : (d.count r ix n).whip = d.whip := by obtain ⟨_, _, h⟩ := d.count_form r ix n; rw [h]
@[simp] theorem Dev.count_pmc (r : Reg) (ix : List Nat) (n : Nat) : (d.count r ix n).pmc = d.pmc := by obtain ⟨_, _, h⟩ := d.count_form r ix n; rw [h]
@[simp] theorem Dev.count_boot (r : Reg) (ix : List Nat) (n : Nat) : (d.count r ix n).boot = d.boot := by obtain ⟨_, _, h⟩ := d.count_form r ix n; rw [h]
@[simp] theorem Dev.count_power (r : Reg) (ix : List Nat) (n : Nat) : (d.count r ix n).power = d.power := by obtain ⟨_, _, h⟩ := d.count_form r ix n; rw [h]
@[simp] theorem Dev.count_host (r : Reg) (ix : List Nat) (n : Nat) : (d.count r ix n).host = d.host := by obtain ⟨_, _, h⟩ := d.count_form r ix n; rw [h]
@[simp] theorem Dev.count_jtag (r : Reg) (ix : List Nat) (n : Nat) : (d.count r ix n).jtag = d.jtag := by obtain ⟨_, _, h⟩ := d.count_form r ix n; rw [h]
@[simp] theorem Dev.count_board (r : Reg) (ix : List Nat) (n : Nat) : (d.count r ix n).board = d.board := by obtain ⟨_, _, h⟩ := d.count_form r ix n; rw [h]
@[simp] theorem Dev.count_hold (r : Reg) (ix : List Nat) (n : Nat) : (d.count r ix n).hold = d.hold := by obtain ⟨_, _, h⟩ := d.count_form r ix n; rw [h]
@[simp] theorem Dev.count_halt (r : Reg) (ix : List Nat) (n : Nat) : (d.count r ix n).halt = d.halt := by obtain ⟨_, _, h⟩ := d.count_form r ix n; rw [h]
@[simp] theorem Dev.count_still (r : Reg) (ix : List Nat) (n : Nat) : (d.count r ix n).still = d.still := by obtain ⟨_, _, h⟩ := d.count_form r ix n; rw [h]
@[simp] theorem Dev.count_set1c (r : Reg) (ix : List Nat) (n : Nat) : (d.count r ix n).set1c = d.set1c := by obtain ⟨_, _, h⟩ := d.count_form r ix n; rw [h]
@[simp] theorem Dev.count_fresh (r : Reg) (ix : List Nat) (n : Nat) : (d.count r ix n).fresh = d.fresh := by obtain ⟨_, _, h⟩ := d.count_form r ix n; rw [h]
@[simp] theorem Dev.count_out (r : Reg) (ix : List Nat) (n : Nat) : (d.count r ix n).out = d.out := by obtain ⟨_, _, h⟩ := d.count_form r ix n; rw [h]

/-- A wide count changes words only. -/
theorem Dev.add64_form (lo hi : Reg × List Nat) (n : Nat) : ∃ w, d.add64 lo hi n = { d with words := w } := by
  have h : ∀ v, ∃ w, (d.wr lo.1 lo.2 (v % 2 ^ 32)).wr hi.1 hi.2 (v / 2 ^ 32) = { d with words := w } := fun _ => ⟨_, rfl⟩
  exact h _

@[simp] theorem Dev.add64_clk (lo hi : Reg × List Nat) (n : Nat) : (d.add64 lo hi n).clk = d.clk := by obtain ⟨_, h⟩ := d.add64_form lo hi n; rw [h]
@[simp] theorem Dev.add64_batch (lo hi : Reg × List Nat) (n : Nat) : (d.add64 lo hi n).batch = d.batch := by obtain ⟨_, h⟩ := d.add64_form lo hi n; rw [h]
@[simp] theorem Dev.add64_vault (lo hi : Reg × List Nat) (n : Nat) : (d.add64 lo hi n).vault = d.vault := by obtain ⟨_, h⟩ := d.add64_form lo hi n; rw [h]
@[simp] theorem Dev.add64_floor (lo hi : Reg × List Nat) (n : Nat) : (d.add64 lo hi n).floor = d.floor := by obtain ⟨_, h⟩ := d.add64_form lo hi n; rw [h]
@[simp] theorem Dev.add64_coach (lo hi : Reg × List Nat) (n : Nat) : (d.add64 lo hi n).coach = d.coach := by obtain ⟨_, h⟩ := d.add64_form lo hi n; rw [h]
@[simp] theorem Dev.add64_cls (lo hi : Reg × List Nat) (n : Nat) : (d.add64 lo hi n).cls = d.cls := by obtain ⟨_, h⟩ := d.add64_form lo hi n; rw [h]
@[simp] theorem Dev.add64_tbm (lo hi : Reg × List Nat) (n : Nat) : (d.add64 lo hi n).tbm = d.tbm := by obtain ⟨_, h⟩ := d.add64_form lo hi n; rw [h]
@[simp] theorem Dev.add64_loft (lo hi : Reg × List Nat) (n : Nat) : (d.add64 lo hi n).loft = d.loft := by obtain ⟨_, h⟩ := d.add64_form lo hi n; rw [h]
@[simp] theorem Dev.add64_ports (lo hi : Reg × List Nat) (n : Nat) : (d.add64 lo hi n).ports = d.ports := by obtain ⟨_, h⟩ := d.add64_form lo hi n; rw [h]
@[simp] theorem Dev.add64_time (lo hi : Reg × List Nat) (n : Nat) : (d.add64 lo hi n).time = d.time := by obtain ⟨_, h⟩ := d.add64_form lo hi n; rw [h]
@[simp] theorem Dev.add64_pair (lo hi : Reg × List Nat) (n : Nat) : (d.add64 lo hi n).pair = d.pair := by obtain ⟨_, h⟩ := d.add64_form lo hi n; rw [h]
@[simp] theorem Dev.add64_ridge (lo hi : Reg × List Nat) (n : Nat) : (d.add64 lo hi n).ridge = d.ridge := by obtain ⟨_, h⟩ := d.add64_form lo hi n; rw [h]
@[simp] theorem Dev.add64_pst (lo hi : Reg × List Nat) (n : Nat) : (d.add64 lo hi n).pst = d.pst := by obtain ⟨_, h⟩ := d.add64_form lo hi n; rw [h]
@[simp] theorem Dev.add64_whip (lo hi : Reg × List Nat) (n : Nat) : (d.add64 lo hi n).whip = d.whip := by obtain ⟨_, h⟩ := d.add64_form lo hi n; rw [h]
@[simp] theorem Dev.add64_pmc (lo hi : Reg × List Nat) (n : Nat) : (d.add64 lo hi n).pmc = d.pmc := by obtain ⟨_, h⟩ := d.add64_form lo hi n; rw [h]
@[simp] theorem Dev.add64_boot (lo hi : Reg × List Nat) (n : Nat) : (d.add64 lo hi n).boot = d.boot := by obtain ⟨_, h⟩ := d.add64_form lo hi n; rw [h]
@[simp] theorem Dev.add64_power (lo hi : Reg × List Nat) (n : Nat) : (d.add64 lo hi n).power = d.power := by obtain ⟨_, h⟩ := d.add64_form lo hi n; rw [h]
@[simp] theorem Dev.add64_host (lo hi : Reg × List Nat) (n : Nat) : (d.add64 lo hi n).host = d.host := by obtain ⟨_, h⟩ := d.add64_form lo hi n; rw [h]
@[simp] theorem Dev.add64_jtag (lo hi : Reg × List Nat) (n : Nat) : (d.add64 lo hi n).jtag = d.jtag := by obtain ⟨_, h⟩ := d.add64_form lo hi n; rw [h]
@[simp] theorem Dev.add64_board (lo hi : Reg × List Nat) (n : Nat) : (d.add64 lo hi n).board = d.board := by obtain ⟨_, h⟩ := d.add64_form lo hi n; rw [h]
@[simp] theorem Dev.add64_hold (lo hi : Reg × List Nat) (n : Nat) : (d.add64 lo hi n).hold = d.hold := by obtain ⟨_, h⟩ := d.add64_form lo hi n; rw [h]
@[simp] theorem Dev.add64_halt (lo hi : Reg × List Nat) (n : Nat) : (d.add64 lo hi n).halt = d.halt := by obtain ⟨_, h⟩ := d.add64_form lo hi n; rw [h]
@[simp] theorem Dev.add64_still (lo hi : Reg × List Nat) (n : Nat) : (d.add64 lo hi n).still = d.still := by obtain ⟨_, h⟩ := d.add64_form lo hi n; rw [h]
@[simp] theorem Dev.add64_set1c (lo hi : Reg × List Nat) (n : Nat) : (d.add64 lo hi n).set1c = d.set1c := by obtain ⟨_, h⟩ := d.add64_form lo hi n; rw [h]
@[simp] theorem Dev.add64_addRc (lo hi : Reg × List Nat) (n : Nat) : (d.add64 lo hi n).addRc = d.addRc := by obtain ⟨_, h⟩ := d.add64_form lo hi n; rw [h]
@[simp] theorem Dev.add64_fresh (lo hi : Reg × List Nat) (n : Nat) : (d.add64 lo hi n).fresh = d.fresh := by obtain ⟨_, h⟩ := d.add64_form lo hi n; rw [h]
@[simp] theorem Dev.add64_out (lo hi : Reg × List Nat) (n : Nat) : (d.add64 lo hi n).out = d.out := by obtain ⟨_, h⟩ := d.add64_form lo hi n; rw [h]

@[simp] theorem Dev.emit_words (o : Out) : (d.emit o).words = d.words := rfl
@[simp] theorem Dev.emit_clk (o : Out) : (d.emit o).clk = d.clk := rfl
@[simp] theorem Dev.emit_batch (o : Out) : (d.emit o).batch = d.batch := rfl
@[simp] theorem Dev.emit_vault (o : Out) : (d.emit o).vault = d.vault := rfl
@[simp] theorem Dev.emit_floor (o : Out) : (d.emit o).floor = d.floor := rfl
@[simp] theorem Dev.emit_coach (o : Out) : (d.emit o).coach = d.coach := rfl
@[simp] theorem Dev.emit_cls (o : Out) : (d.emit o).cls = d.cls := rfl
@[simp] theorem Dev.emit_tbm (o : Out) : (d.emit o).tbm = d.tbm := rfl
@[simp] theorem Dev.emit_loft (o : Out) : (d.emit o).loft = d.loft := rfl
@[simp] theorem Dev.emit_ports (o : Out) : (d.emit o).ports = d.ports := rfl
@[simp] theorem Dev.emit_time (o : Out) : (d.emit o).time = d.time := rfl
@[simp] theorem Dev.emit_pair (o : Out) : (d.emit o).pair = d.pair := rfl
@[simp] theorem Dev.emit_ridge (o : Out) : (d.emit o).ridge = d.ridge := rfl
@[simp] theorem Dev.emit_pst (o : Out) : (d.emit o).pst = d.pst := rfl
@[simp] theorem Dev.emit_whip (o : Out) : (d.emit o).whip = d.whip := rfl
@[simp] theorem Dev.emit_pmc (o : Out) : (d.emit o).pmc = d.pmc := rfl
@[simp] theorem Dev.emit_boot (o : Out) : (d.emit o).boot = d.boot := rfl
@[simp] theorem Dev.emit_power (o : Out) : (d.emit o).power = d.power := rfl
@[simp] theorem Dev.emit_host (o : Out) : (d.emit o).host = d.host := rfl
@[simp] theorem Dev.emit_jtag (o : Out) : (d.emit o).jtag = d.jtag := rfl
@[simp] theorem Dev.emit_board (o : Out) : (d.emit o).board = d.board := rfl
@[simp] theorem Dev.emit_hold (o : Out) : (d.emit o).hold = d.hold := rfl
@[simp] theorem Dev.emit_halt (o : Out) : (d.emit o).halt = d.halt := rfl
@[simp] theorem Dev.emit_still (o : Out) : (d.emit o).still = d.still := rfl
@[simp] theorem Dev.emit_set1c (o : Out) : (d.emit o).set1c = d.set1c := rfl
@[simp] theorem Dev.emit_addRc (o : Out) : (d.emit o).addRc = d.addRc := rfl
@[simp] theorem Dev.emit_fresh (o : Out) : (d.emit o).fresh = d.fresh := rfl
@[simp] theorem Dev.emit_out (o : Out) : (d.emit o).out = d.out ++ [o] := rfl

@[simp] theorem Dev.setCo_words (c : Nat) (x : CoachDyn) : (d.setCo c x).words = d.words := rfl
@[simp] theorem Dev.setCo_clk (c : Nat) (x : CoachDyn) : (d.setCo c x).clk = d.clk := rfl
@[simp] theorem Dev.setCo_batch (c : Nat) (x : CoachDyn) : (d.setCo c x).batch = d.batch := rfl
@[simp] theorem Dev.setCo_vault (c : Nat) (x : CoachDyn) : (d.setCo c x).vault = d.vault := rfl
@[simp] theorem Dev.setCo_floor (c : Nat) (x : CoachDyn) : (d.setCo c x).floor = d.floor := rfl
@[simp] theorem Dev.setCo_coach (c : Nat) (x : CoachDyn) : (d.setCo c x).coach =
    { d.coach with dyn := tput d.coach.dyn .init c x, remasked := d.remask c x } := rfl
@[simp] theorem Dev.setCo_cls (c : Nat) (x : CoachDyn) : (d.setCo c x).cls = d.cls := rfl
@[simp] theorem Dev.setCo_tbm (c : Nat) (x : CoachDyn) : (d.setCo c x).tbm = d.tbm := rfl
@[simp] theorem Dev.setCo_loft (c : Nat) (x : CoachDyn) : (d.setCo c x).loft = d.loft := rfl
@[simp] theorem Dev.setCo_ports (c : Nat) (x : CoachDyn) : (d.setCo c x).ports = d.ports := rfl
@[simp] theorem Dev.setCo_time (c : Nat) (x : CoachDyn) : (d.setCo c x).time = d.time := rfl
@[simp] theorem Dev.setCo_pair (c : Nat) (x : CoachDyn) : (d.setCo c x).pair = d.pair := rfl
@[simp] theorem Dev.setCo_ridge (c : Nat) (x : CoachDyn) : (d.setCo c x).ridge = d.ridge := rfl
@[simp] theorem Dev.setCo_pst (c : Nat) (x : CoachDyn) : (d.setCo c x).pst = d.pst := rfl
@[simp] theorem Dev.setCo_whip (c : Nat) (x : CoachDyn) : (d.setCo c x).whip = d.whip := rfl
@[simp] theorem Dev.setCo_pmc (c : Nat) (x : CoachDyn) : (d.setCo c x).pmc = d.pmc := rfl
@[simp] theorem Dev.setCo_boot (c : Nat) (x : CoachDyn) : (d.setCo c x).boot = d.boot := rfl
@[simp] theorem Dev.setCo_power (c : Nat) (x : CoachDyn) : (d.setCo c x).power = d.power := rfl
@[simp] theorem Dev.setCo_host (c : Nat) (x : CoachDyn) : (d.setCo c x).host = d.host := rfl
@[simp] theorem Dev.setCo_jtag (c : Nat) (x : CoachDyn) : (d.setCo c x).jtag = d.jtag := rfl
@[simp] theorem Dev.setCo_board (c : Nat) (x : CoachDyn) : (d.setCo c x).board = d.board := rfl
@[simp] theorem Dev.setCo_hold (c : Nat) (x : CoachDyn) : (d.setCo c x).hold = d.hold := rfl
@[simp] theorem Dev.setCo_halt (c : Nat) (x : CoachDyn) : (d.setCo c x).halt = d.halt := rfl
@[simp] theorem Dev.setCo_still (c : Nat) (x : CoachDyn) : (d.setCo c x).still = d.still := rfl
@[simp] theorem Dev.setCo_set1c (c : Nat) (x : CoachDyn) : (d.setCo c x).set1c = d.set1c := rfl
@[simp] theorem Dev.setCo_addRc (c : Nat) (x : CoachDyn) : (d.setCo c x).addRc = d.addRc := rfl
@[simp] theorem Dev.setCo_fresh (c : Nat) (x : CoachDyn) : (d.setCo c x).fresh = d.fresh := rfl
@[simp] theorem Dev.setCo_out (c : Nat) (x : CoachDyn) : (d.setCo c x).out = d.out := rfl

@[simp] theorem Dev.setPort_words (p : Nat) (x : PortDyn) : (d.setPort p x).words = d.words := rfl
@[simp] theorem Dev.setPort_clk (p : Nat) (x : PortDyn) : (d.setPort p x).clk = d.clk := rfl
@[simp] theorem Dev.setPort_batch (p : Nat) (x : PortDyn) : (d.setPort p x).batch = d.batch := rfl
@[simp] theorem Dev.setPort_vault (p : Nat) (x : PortDyn) : (d.setPort p x).vault = d.vault := rfl
@[simp] theorem Dev.setPort_floor (p : Nat) (x : PortDyn) : (d.setPort p x).floor = d.floor := rfl
@[simp] theorem Dev.setPort_coach (p : Nat) (x : PortDyn) : (d.setPort p x).coach = d.coach := rfl
@[simp] theorem Dev.setPort_cls (p : Nat) (x : PortDyn) : (d.setPort p x).cls = d.cls := rfl
@[simp] theorem Dev.setPort_tbm (p : Nat) (x : PortDyn) : (d.setPort p x).tbm = d.tbm := rfl
@[simp] theorem Dev.setPort_loft (p : Nat) (x : PortDyn) : (d.setPort p x).loft = d.loft := rfl
@[simp] theorem Dev.setPort_ports (p : Nat) (x : PortDyn) : (d.setPort p x).ports = { d.ports with dyn := tput d.ports.dyn .init p x } := rfl
@[simp] theorem Dev.setPort_time (p : Nat) (x : PortDyn) : (d.setPort p x).time = d.time := rfl
@[simp] theorem Dev.setPort_pair (p : Nat) (x : PortDyn) : (d.setPort p x).pair = d.pair := rfl
@[simp] theorem Dev.setPort_ridge (p : Nat) (x : PortDyn) : (d.setPort p x).ridge = d.ridge := rfl
@[simp] theorem Dev.setPort_pst (p : Nat) (x : PortDyn) : (d.setPort p x).pst = d.pst := rfl
@[simp] theorem Dev.setPort_whip (p : Nat) (x : PortDyn) : (d.setPort p x).whip = d.whip := rfl
@[simp] theorem Dev.setPort_pmc (p : Nat) (x : PortDyn) : (d.setPort p x).pmc = d.pmc := rfl
@[simp] theorem Dev.setPort_boot (p : Nat) (x : PortDyn) : (d.setPort p x).boot = d.boot := rfl
@[simp] theorem Dev.setPort_power (p : Nat) (x : PortDyn) : (d.setPort p x).power = d.power := rfl
@[simp] theorem Dev.setPort_host (p : Nat) (x : PortDyn) : (d.setPort p x).host = d.host := rfl
@[simp] theorem Dev.setPort_jtag (p : Nat) (x : PortDyn) : (d.setPort p x).jtag = d.jtag := rfl
@[simp] theorem Dev.setPort_board (p : Nat) (x : PortDyn) : (d.setPort p x).board = d.board := rfl
@[simp] theorem Dev.setPort_hold (p : Nat) (x : PortDyn) : (d.setPort p x).hold = d.hold := rfl
@[simp] theorem Dev.setPort_halt (p : Nat) (x : PortDyn) : (d.setPort p x).halt = d.halt := rfl
@[simp] theorem Dev.setPort_still (p : Nat) (x : PortDyn) : (d.setPort p x).still = d.still := rfl
@[simp] theorem Dev.setPort_set1c (p : Nat) (x : PortDyn) : (d.setPort p x).set1c = d.set1c := rfl
@[simp] theorem Dev.setPort_addRc (p : Nat) (x : PortDyn) : (d.setPort p x).addRc = d.addRc := rfl
@[simp] theorem Dev.setPort_fresh (p : Nat) (x : PortDyn) : (d.setPort p x).fresh = d.fresh := rfl
@[simp] theorem Dev.setPort_out (p : Nat) (x : PortDyn) : (d.setPort p x).out = d.out := rfl

@[simp] theorem Dev.setThatch_words (n : Nat) (x : ThatchDyn) : (d.setThatch n x).words = d.words := rfl
@[simp] theorem Dev.setThatch_clk (n : Nat) (x : ThatchDyn) : (d.setThatch n x).clk = d.clk := rfl
@[simp] theorem Dev.setThatch_batch (n : Nat) (x : ThatchDyn) : (d.setThatch n x).batch = d.batch := rfl
@[simp] theorem Dev.setThatch_vault (n : Nat) (x : ThatchDyn) : (d.setThatch n x).vault = d.vault := rfl
@[simp] theorem Dev.setThatch_floor (n : Nat) (x : ThatchDyn) : (d.setThatch n x).floor = d.floor := rfl
@[simp] theorem Dev.setThatch_coach (n : Nat) (x : ThatchDyn) : (d.setThatch n x).coach = d.coach := rfl
@[simp] theorem Dev.setThatch_cls (n : Nat) (x : ThatchDyn) : (d.setThatch n x).cls = d.cls := rfl
@[simp] theorem Dev.setThatch_tbm (n : Nat) (x : ThatchDyn) : (d.setThatch n x).tbm = d.tbm := rfl
@[simp] theorem Dev.setThatch_loft (n : Nat) (x : ThatchDyn) : (d.setThatch n x).loft = d.loft := rfl
@[simp] theorem Dev.setThatch_ports (n : Nat) (x : ThatchDyn) : (d.setThatch n x).ports = { d.ports with thatch := tput d.ports.thatch thatchInit n x } := rfl
@[simp] theorem Dev.setThatch_time (n : Nat) (x : ThatchDyn) : (d.setThatch n x).time = d.time := rfl
@[simp] theorem Dev.setThatch_pair (n : Nat) (x : ThatchDyn) : (d.setThatch n x).pair = d.pair := rfl
@[simp] theorem Dev.setThatch_ridge (n : Nat) (x : ThatchDyn) : (d.setThatch n x).ridge = d.ridge := rfl
@[simp] theorem Dev.setThatch_pst (n : Nat) (x : ThatchDyn) : (d.setThatch n x).pst = d.pst := rfl
@[simp] theorem Dev.setThatch_whip (n : Nat) (x : ThatchDyn) : (d.setThatch n x).whip = d.whip := rfl
@[simp] theorem Dev.setThatch_pmc (n : Nat) (x : ThatchDyn) : (d.setThatch n x).pmc = d.pmc := rfl
@[simp] theorem Dev.setThatch_boot (n : Nat) (x : ThatchDyn) : (d.setThatch n x).boot = d.boot := rfl
@[simp] theorem Dev.setThatch_power (n : Nat) (x : ThatchDyn) : (d.setThatch n x).power = d.power := rfl
@[simp] theorem Dev.setThatch_host (n : Nat) (x : ThatchDyn) : (d.setThatch n x).host = d.host := rfl
@[simp] theorem Dev.setThatch_jtag (n : Nat) (x : ThatchDyn) : (d.setThatch n x).jtag = d.jtag := rfl
@[simp] theorem Dev.setThatch_board (n : Nat) (x : ThatchDyn) : (d.setThatch n x).board = d.board := rfl
@[simp] theorem Dev.setThatch_hold (n : Nat) (x : ThatchDyn) : (d.setThatch n x).hold = d.hold := rfl
@[simp] theorem Dev.setThatch_halt (n : Nat) (x : ThatchDyn) : (d.setThatch n x).halt = d.halt := rfl
@[simp] theorem Dev.setThatch_still (n : Nat) (x : ThatchDyn) : (d.setThatch n x).still = d.still := rfl
@[simp] theorem Dev.setThatch_set1c (n : Nat) (x : ThatchDyn) : (d.setThatch n x).set1c = d.set1c := rfl
@[simp] theorem Dev.setThatch_addRc (n : Nat) (x : ThatchDyn) : (d.setThatch n x).addRc = d.addRc := rfl
@[simp] theorem Dev.setThatch_fresh (n : Nat) (x : ThatchDyn) : (d.setThatch n x).fresh = d.fresh := rfl
@[simp] theorem Dev.setThatch_out (n : Nat) (x : ThatchDyn) : (d.setThatch n x).out = d.out := rfl

@[simp] theorem Dev.setSrc_words (s : Nat) (x : SrcDyn) : (d.setSrc s x).words = d.words := rfl
@[simp] theorem Dev.setSrc_clk (s : Nat) (x : SrcDyn) : (d.setSrc s x).clk = d.clk := rfl
@[simp] theorem Dev.setSrc_batch (s : Nat) (x : SrcDyn) : (d.setSrc s x).batch = d.batch := rfl
@[simp] theorem Dev.setSrc_vault (s : Nat) (x : SrcDyn) : (d.setSrc s x).vault = d.vault := rfl
@[simp] theorem Dev.setSrc_floor (s : Nat) (x : SrcDyn) : (d.setSrc s x).floor = d.floor := rfl
@[simp] theorem Dev.setSrc_coach (s : Nat) (x : SrcDyn) : (d.setSrc s x).coach = d.coach := rfl
@[simp] theorem Dev.setSrc_cls (s : Nat) (x : SrcDyn) : (d.setSrc s x).cls = d.cls := rfl
@[simp] theorem Dev.setSrc_tbm (s : Nat) (x : SrcDyn) : (d.setSrc s x).tbm = d.tbm := rfl
@[simp] theorem Dev.setSrc_loft (s : Nat) (x : SrcDyn) : (d.setSrc s x).loft = d.loft := rfl
@[simp] theorem Dev.setSrc_ports (s : Nat) (x : SrcDyn) : (d.setSrc s x).ports = d.ports := rfl
@[simp] theorem Dev.setSrc_time (s : Nat) (x : SrcDyn) : (d.setSrc s x).time = d.time := rfl
@[simp] theorem Dev.setSrc_pair (s : Nat) (x : SrcDyn) : (d.setSrc s x).pair = d.pair := rfl
@[simp] theorem Dev.setSrc_ridge (s : Nat) (x : SrcDyn) : (d.setSrc s x).ridge = d.ridge := rfl
@[simp] theorem Dev.setSrc_pst (s : Nat) (x : SrcDyn) : (d.setSrc s x).pst = { d.pst with src := tput d.pst.src .init s x } := rfl
@[simp] theorem Dev.setSrc_whip (s : Nat) (x : SrcDyn) : (d.setSrc s x).whip = d.whip := rfl
@[simp] theorem Dev.setSrc_pmc (s : Nat) (x : SrcDyn) : (d.setSrc s x).pmc = d.pmc := rfl
@[simp] theorem Dev.setSrc_boot (s : Nat) (x : SrcDyn) : (d.setSrc s x).boot = d.boot := rfl
@[simp] theorem Dev.setSrc_power (s : Nat) (x : SrcDyn) : (d.setSrc s x).power = d.power := rfl
@[simp] theorem Dev.setSrc_host (s : Nat) (x : SrcDyn) : (d.setSrc s x).host = d.host := rfl
@[simp] theorem Dev.setSrc_jtag (s : Nat) (x : SrcDyn) : (d.setSrc s x).jtag = d.jtag := rfl
@[simp] theorem Dev.setSrc_board (s : Nat) (x : SrcDyn) : (d.setSrc s x).board = d.board := rfl
@[simp] theorem Dev.setSrc_hold (s : Nat) (x : SrcDyn) : (d.setSrc s x).hold = d.hold := rfl
@[simp] theorem Dev.setSrc_halt (s : Nat) (x : SrcDyn) : (d.setSrc s x).halt = d.halt := rfl
@[simp] theorem Dev.setSrc_still (s : Nat) (x : SrcDyn) : (d.setSrc s x).still = d.still := rfl
@[simp] theorem Dev.setSrc_set1c (s : Nat) (x : SrcDyn) : (d.setSrc s x).set1c = d.set1c := rfl
@[simp] theorem Dev.setSrc_addRc (s : Nat) (x : SrcDyn) : (d.setSrc s x).addRc = d.addRc := rfl
@[simp] theorem Dev.setSrc_fresh (s : Nat) (x : SrcDyn) : (d.setSrc s x).fresh = d.fresh := rfl
@[simp] theorem Dev.setSrc_out (s : Nat) (x : SrcDyn) : (d.setSrc s x).out = d.out := rfl

@[simp] theorem Dev.setDomain_words (x : Nat) (v : Domain) : (d.setDomain x v).words = d.words := rfl
@[simp] theorem Dev.setDomain_clk (x : Nat) (v : Domain) : (d.setDomain x v).clk = d.clk := rfl
@[simp] theorem Dev.setDomain_batch (x : Nat) (v : Domain) : (d.setDomain x v).batch = d.batch := rfl
@[simp] theorem Dev.setDomain_vault (x : Nat) (v : Domain) : (d.setDomain x v).vault = d.vault := rfl
@[simp] theorem Dev.setDomain_floor (x : Nat) (v : Domain) : (d.setDomain x v).floor = d.floor := rfl
@[simp] theorem Dev.setDomain_coach (x : Nat) (v : Domain) : (d.setDomain x v).coach = d.coach := rfl
@[simp] theorem Dev.setDomain_cls (x : Nat) (v : Domain) : (d.setDomain x v).cls = d.cls := rfl
@[simp] theorem Dev.setDomain_tbm (x : Nat) (v : Domain) : (d.setDomain x v).tbm = d.tbm := rfl
@[simp] theorem Dev.setDomain_loft (x : Nat) (v : Domain) : (d.setDomain x v).loft = d.loft := rfl
@[simp] theorem Dev.setDomain_ports (x : Nat) (v : Domain) : (d.setDomain x v).ports = d.ports := rfl
@[simp] theorem Dev.setDomain_time (x : Nat) (v : Domain) : (d.setDomain x v).time = d.time := rfl
@[simp] theorem Dev.setDomain_pair (x : Nat) (v : Domain) : (d.setDomain x v).pair = d.pair := rfl
@[simp] theorem Dev.setDomain_ridge (x : Nat) (v : Domain) : (d.setDomain x v).ridge = d.ridge := rfl
@[simp] theorem Dev.setDomain_pst (x : Nat) (v : Domain) : (d.setDomain x v).pst = d.pst := rfl
@[simp] theorem Dev.setDomain_whip (x : Nat) (v : Domain) : (d.setDomain x v).whip = d.whip := rfl
@[simp] theorem Dev.setDomain_pmc (x : Nat) (v : Domain) : (d.setDomain x v).pmc = d.pmc := rfl
@[simp] theorem Dev.setDomain_boot (x : Nat) (v : Domain) : (d.setDomain x v).boot = d.boot := rfl
@[simp] theorem Dev.setDomain_power (x : Nat) (v : Domain) : (d.setDomain x v).power = { d.power with dom := tput d.power.dom ⟨.off, false, 0, false⟩ x v } := rfl
@[simp] theorem Dev.setDomain_host (x : Nat) (v : Domain) : (d.setDomain x v).host = d.host := rfl
@[simp] theorem Dev.setDomain_jtag (x : Nat) (v : Domain) : (d.setDomain x v).jtag = d.jtag := rfl
@[simp] theorem Dev.setDomain_board (x : Nat) (v : Domain) : (d.setDomain x v).board = d.board := rfl
@[simp] theorem Dev.setDomain_hold (x : Nat) (v : Domain) : (d.setDomain x v).hold = d.hold := rfl
@[simp] theorem Dev.setDomain_halt (x : Nat) (v : Domain) : (d.setDomain x v).halt = d.halt := rfl
@[simp] theorem Dev.setDomain_still (x : Nat) (v : Domain) : (d.setDomain x v).still = d.still := rfl
@[simp] theorem Dev.setDomain_set1c (x : Nat) (v : Domain) : (d.setDomain x v).set1c = d.set1c := rfl
@[simp] theorem Dev.setDomain_addRc (x : Nat) (v : Domain) : (d.setDomain x v).addRc = d.addRc := rfl
@[simp] theorem Dev.setDomain_fresh (x : Nat) (v : Domain) : (d.setDomain x v).fresh = d.fresh := rfl
@[simp] theorem Dev.setDomain_out (x : Nat) (v : Domain) : (d.setDomain x v).out = d.out := rfl

@[simp] theorem Dev.setTb_words (n : Nat) (x : TimeBase) : (d.setTb n x).words = d.words := rfl
@[simp] theorem Dev.setTb_clk (n : Nat) (x : TimeBase) : (d.setTb n x).clk = d.clk := rfl
@[simp] theorem Dev.setTb_batch (n : Nat) (x : TimeBase) : (d.setTb n x).batch = d.batch := rfl
@[simp] theorem Dev.setTb_vault (n : Nat) (x : TimeBase) : (d.setTb n x).vault = d.vault := rfl
@[simp] theorem Dev.setTb_floor (n : Nat) (x : TimeBase) : (d.setTb n x).floor = d.floor := rfl
@[simp] theorem Dev.setTb_coach (n : Nat) (x : TimeBase) : (d.setTb n x).coach = d.coach := rfl
@[simp] theorem Dev.setTb_cls (n : Nat) (x : TimeBase) : (d.setTb n x).cls = d.cls := rfl
@[simp] theorem Dev.setTb_tbm (n : Nat) (x : TimeBase) : (d.setTb n x).tbm = d.tbm := rfl
@[simp] theorem Dev.setTb_loft (n : Nat) (x : TimeBase) : (d.setTb n x).loft = d.loft := rfl
@[simp] theorem Dev.setTb_ports (n : Nat) (x : TimeBase) : (d.setTb n x).ports = d.ports := rfl
@[simp] theorem Dev.setTb_time (n : Nat) (x : TimeBase) : (d.setTb n x).time = { d.time with tb := tput d.time.tb .init n x } := rfl
@[simp] theorem Dev.setTb_pair (n : Nat) (x : TimeBase) : (d.setTb n x).pair = d.pair := rfl
@[simp] theorem Dev.setTb_ridge (n : Nat) (x : TimeBase) : (d.setTb n x).ridge = d.ridge := rfl
@[simp] theorem Dev.setTb_pst (n : Nat) (x : TimeBase) : (d.setTb n x).pst = d.pst := rfl
@[simp] theorem Dev.setTb_whip (n : Nat) (x : TimeBase) : (d.setTb n x).whip = d.whip := rfl
@[simp] theorem Dev.setTb_pmc (n : Nat) (x : TimeBase) : (d.setTb n x).pmc = d.pmc := rfl
@[simp] theorem Dev.setTb_boot (n : Nat) (x : TimeBase) : (d.setTb n x).boot = d.boot := rfl
@[simp] theorem Dev.setTb_power (n : Nat) (x : TimeBase) : (d.setTb n x).power = d.power := rfl
@[simp] theorem Dev.setTb_host (n : Nat) (x : TimeBase) : (d.setTb n x).host = d.host := rfl
@[simp] theorem Dev.setTb_jtag (n : Nat) (x : TimeBase) : (d.setTb n x).jtag = d.jtag := rfl
@[simp] theorem Dev.setTb_board (n : Nat) (x : TimeBase) : (d.setTb n x).board = d.board := rfl
@[simp] theorem Dev.setTb_hold (n : Nat) (x : TimeBase) : (d.setTb n x).hold = d.hold := rfl
@[simp] theorem Dev.setTb_halt (n : Nat) (x : TimeBase) : (d.setTb n x).halt = d.halt := rfl
@[simp] theorem Dev.setTb_still (n : Nat) (x : TimeBase) : (d.setTb n x).still = d.still := rfl
@[simp] theorem Dev.setTb_set1c (n : Nat) (x : TimeBase) : (d.setTb n x).set1c = d.set1c := rfl
@[simp] theorem Dev.setTb_addRc (n : Nat) (x : TimeBase) : (d.setTb n x).addRc = d.addRc := rfl
@[simp] theorem Dev.setTb_fresh (n : Nat) (x : TimeBase) : (d.setTb n x).fresh = d.fresh := rfl
@[simp] theorem Dev.setTb_out (n : Nat) (x : TimeBase) : (d.setTb n x).out = d.out := rfl

@[simp] theorem Dev.setQueue_words (q : Nat) (l : List QEntry) : (d.setQueue q l).words = d.words := rfl
@[simp] theorem Dev.setQueue_clk (q : Nat) (l : List QEntry) : (d.setQueue q l).clk = d.clk := rfl
@[simp] theorem Dev.setQueue_batch (q : Nat) (l : List QEntry) : (d.setQueue q l).batch = d.batch := rfl
@[simp] theorem Dev.setQueue_vault (q : Nat) (l : List QEntry) : (d.setQueue q l).vault = d.vault := rfl
@[simp] theorem Dev.setQueue_floor (q : Nat) (l : List QEntry) : (d.setQueue q l).floor = d.floor := rfl
@[simp] theorem Dev.setQueue_coach (q : Nat) (l : List QEntry) : (d.setQueue q l).coach = d.coach := rfl
@[simp] theorem Dev.setQueue_cls (q : Nat) (l : List QEntry) : (d.setQueue q l).cls = d.cls := rfl
@[simp] theorem Dev.setQueue_tbm (q : Nat) (l : List QEntry) : (d.setQueue q l).tbm = d.tbm := rfl
@[simp] theorem Dev.setQueue_loft (q : Nat) (l : List QEntry) : (d.setQueue q l).loft = { d.loft with queues := tput d.loft.queues [] q l } := rfl
@[simp] theorem Dev.setQueue_ports (q : Nat) (l : List QEntry) : (d.setQueue q l).ports = d.ports := rfl
@[simp] theorem Dev.setQueue_time (q : Nat) (l : List QEntry) : (d.setQueue q l).time = d.time := rfl
@[simp] theorem Dev.setQueue_pair (q : Nat) (l : List QEntry) : (d.setQueue q l).pair = d.pair := rfl
@[simp] theorem Dev.setQueue_ridge (q : Nat) (l : List QEntry) : (d.setQueue q l).ridge = d.ridge := rfl
@[simp] theorem Dev.setQueue_pst (q : Nat) (l : List QEntry) : (d.setQueue q l).pst = d.pst := rfl
@[simp] theorem Dev.setQueue_whip (q : Nat) (l : List QEntry) : (d.setQueue q l).whip = d.whip := rfl
@[simp] theorem Dev.setQueue_pmc (q : Nat) (l : List QEntry) : (d.setQueue q l).pmc = d.pmc := rfl
@[simp] theorem Dev.setQueue_boot (q : Nat) (l : List QEntry) : (d.setQueue q l).boot = d.boot := rfl
@[simp] theorem Dev.setQueue_power (q : Nat) (l : List QEntry) : (d.setQueue q l).power = d.power := rfl
@[simp] theorem Dev.setQueue_host (q : Nat) (l : List QEntry) : (d.setQueue q l).host = d.host := rfl
@[simp] theorem Dev.setQueue_jtag (q : Nat) (l : List QEntry) : (d.setQueue q l).jtag = d.jtag := rfl
@[simp] theorem Dev.setQueue_board (q : Nat) (l : List QEntry) : (d.setQueue q l).board = d.board := rfl
@[simp] theorem Dev.setQueue_hold (q : Nat) (l : List QEntry) : (d.setQueue q l).hold = d.hold := rfl
@[simp] theorem Dev.setQueue_halt (q : Nat) (l : List QEntry) : (d.setQueue q l).halt = d.halt := rfl
@[simp] theorem Dev.setQueue_still (q : Nat) (l : List QEntry) : (d.setQueue q l).still = d.still := rfl
@[simp] theorem Dev.setQueue_set1c (q : Nat) (l : List QEntry) : (d.setQueue q l).set1c = d.set1c := rfl
@[simp] theorem Dev.setQueue_addRc (q : Nat) (l : List QEntry) : (d.setQueue q l).addRc = d.addRc := rfl
@[simp] theorem Dev.setQueue_fresh (q : Nat) (l : List QEntry) : (d.setQueue q l).fresh = d.fresh := rfl
@[simp] theorem Dev.setQueue_out (q : Nat) (l : List QEntry) : (d.setQueue q l).out = d.out := rfl

@[simp] theorem Dev.setLane_words (j : Nat) (x : Lane) : (d.setLane j x).words = d.words := rfl
@[simp] theorem Dev.setLane_clk (j : Nat) (x : Lane) : (d.setLane j x).clk = d.clk := rfl
@[simp] theorem Dev.setLane_batch (j : Nat) (x : Lane) : (d.setLane j x).batch = d.batch := rfl
@[simp] theorem Dev.setLane_vault (j : Nat) (x : Lane) : (d.setLane j x).vault = d.vault := rfl
@[simp] theorem Dev.setLane_floor (j : Nat) (x : Lane) : (d.setLane j x).floor = d.floor := rfl
@[simp] theorem Dev.setLane_coach (j : Nat) (x : Lane) : (d.setLane j x).coach = d.coach := rfl
@[simp] theorem Dev.setLane_cls (j : Nat) (x : Lane) : (d.setLane j x).cls = d.cls := rfl
@[simp] theorem Dev.setLane_tbm (j : Nat) (x : Lane) : (d.setLane j x).tbm = d.tbm := rfl
@[simp] theorem Dev.setLane_loft (j : Nat) (x : Lane) : (d.setLane j x).loft = d.loft := rfl
@[simp] theorem Dev.setLane_ports (j : Nat) (x : Lane) : (d.setLane j x).ports = d.ports := rfl
@[simp] theorem Dev.setLane_time (j : Nat) (x : Lane) : (d.setLane j x).time = d.time := rfl
@[simp] theorem Dev.setLane_pair (j : Nat) (x : Lane) : (d.setLane j x).pair = d.pair := rfl
@[simp] theorem Dev.setLane_ridge (j : Nat) (x : Lane) : (d.setLane j x).ridge = { d.ridge with lanes := tput d.ridge.lanes Lane.init j x } := rfl
@[simp] theorem Dev.setLane_pst (j : Nat) (x : Lane) : (d.setLane j x).pst = d.pst := rfl
@[simp] theorem Dev.setLane_whip (j : Nat) (x : Lane) : (d.setLane j x).whip = d.whip := rfl
@[simp] theorem Dev.setLane_pmc (j : Nat) (x : Lane) : (d.setLane j x).pmc = d.pmc := rfl
@[simp] theorem Dev.setLane_boot (j : Nat) (x : Lane) : (d.setLane j x).boot = d.boot := rfl
@[simp] theorem Dev.setLane_power (j : Nat) (x : Lane) : (d.setLane j x).power = d.power := rfl
@[simp] theorem Dev.setLane_host (j : Nat) (x : Lane) : (d.setLane j x).host = d.host := rfl
@[simp] theorem Dev.setLane_jtag (j : Nat) (x : Lane) : (d.setLane j x).jtag = d.jtag := rfl
@[simp] theorem Dev.setLane_board (j : Nat) (x : Lane) : (d.setLane j x).board = d.board := rfl
@[simp] theorem Dev.setLane_hold (j : Nat) (x : Lane) : (d.setLane j x).hold = d.hold := rfl
@[simp] theorem Dev.setLane_halt (j : Nat) (x : Lane) : (d.setLane j x).halt = d.halt := rfl
@[simp] theorem Dev.setLane_still (j : Nat) (x : Lane) : (d.setLane j x).still = d.still := rfl
@[simp] theorem Dev.setLane_set1c (j : Nat) (x : Lane) : (d.setLane j x).set1c = d.set1c := rfl
@[simp] theorem Dev.setLane_addRc (j : Nat) (x : Lane) : (d.setLane j x).addRc = d.addRc := rfl
@[simp] theorem Dev.setLane_fresh (j : Nat) (x : Lane) : (d.setLane j x).fresh = d.fresh := rfl
@[simp] theorem Dev.setLane_out (j : Nat) (x : Lane) : (d.setLane j x).out = d.out := rfl

end Sys2Proof.Machine
end

