-- ==== Sys2Proof/Machine/Pins.lean ====
section
/-! DEFINITION. What the output pins show in the CCLK under way (R662): the states of chip reset until the block that drives an
output takes it over, what that block drives from then on, and what a boundary-scan instruction puts in its place (R647). -/

namespace Sys2Proof.Machine

/-- An output that is driven low or high. -/
def levelOf (b : Bool) : PinLevel := if b then .high else .low

/-- An open-drain output: low, or released. -/
def openDrain (low : Bool) : PinLevel := if low then .low else .released

/-- The outputs in chip reset (R662). Qc_CFG_N is not in the rule's table: nothing is said of its level (log entry 93). -/
def resetPinLevel : Pin → PinLevel
  | .lane _ _ | .ridge _ | .pcie => .idle
  | .arbHb | .pps _ | .flashSck | .qRstN _ | .qCk _ => .low
  | .arbStat => .code 1
  | .errN | .alertN | .tdo => .released
  | .flashCsN => .high
  | .qCfgN _ => .data false

/-- A read, erase or program operation runs on the configuration flash (R597). -/
def Dev.flashActive (d : Dev) : Bool := d.boot.flJob.isSome || d.ownWrite

/-- A Ridge transmit lane sends: training has begun with its PLL locked and its domain on (R524, R531). -/
def Dev.ridgeSends (d : Dev) : Bool := d.ridge.started && d.domOn 21

/-- What the device itself puts on its outputs (R365, R505, R506, R554, R572, R597, R629, R670): while a memory channel trains its
CFG_N and RST_N follow the QDR-IV protocol, and then RST_N is high. -/
def Dev.ownPin (d : Dev) : Pin → PinLevel
  | .lane p i =>
    if d.lanesIdle p || decide (lanesOf (d.modeOf p) ≤ i) then .idle else .data (bit (d.lanePol p i) 1)
  | .ridge j => if d.ridgeSends && j < 16 then .data (d.flag .RDG_LANE_CTL [j] 2) else .idle
  | .pcie => if d.boot.clockEnd then .data false else .idle
  | .arbHb => levelOf d.pair.hb
  | .arbStat => .code d.arbStat
  | .pps o => levelOf (d.ppsLevel o || (o == 3 && d.whipOutPin))
  | .errN => openDrain d.errLow
  | .alertN => openDrain d.alertLow
  | .tdo => .released
  | .flashCsN => if d.flashActive then .data false else .high
  | .flashSck => if d.flashActive then .data false else .low
  | .qRstN c =>
    let t := tgetD d.tbm.train c 0
    if t == 0 then .low else if t == 1 then .data false else .high
  | .qCfgN _ => .data false
  | .qCk c => if tgetD d.tbm.train c 0 == 0 then .low else .data false

/-- An output pin (R647, R662). -/
def Dev.pin (d : Dev) (p : Pin) : PinLevel :=
  match d.drive with
  | .floating => .released
  | .cells _ => .data false
  | .own => if d.inReset then resetPinLevel p else d.ownPin p

end Sys2Proof.Machine
end

