-- ==== Sys2Proof/Tests/Slice0.lean ====
section
/-! SUPPORT. The model's own tests: the well-formedness checks with a term that each refuses, worked values of the
manual, and for every statement of Obligations.lean states and operands that meet its hypotheses together. -/

namespace Sys2Proof.Tests
open Sys2Proof Sys2Proof.Machine

set_option Elab.async false

/-! The states the witnesses use. -/

/-- A running SOLO device, at CCLK 600 of beat 5, whose start sequence is through. -/
def base : Dev := { Dev.afterReset .blank 0 0 with
  clk := ⟨5, 600, 6600, true, true, true, 0, false, []⟩
  vault := { Vault.reset with rootOk := true, trngOk := true, engOk := true }
  boot := { Boot.reset with
    stage := 8, clockEnd := true, vaultEnd := true, flashEnd := true, imageEnd := true, verifyEnd := true, keysEnd := true }
  pair := { Pair.reset with state := .solo } }

/-- A device whose start sequence is under way at a stage. -/
def early (n : Nat) : Dev :=
  let d := Dev.afterReset .blank 0 0
  { d with boot := { d.boot with stage := n } }

/-- A state with settled conditions and no command waiting. -/
def mk (d : Dev) : State := ⟨{ d with host := { d.host with cond := d.condMask } }, []⟩

/-- What State.Ready says, as a check. -/
def readyB (s : State) : Bool :=
  !s.dev.inReset && s.dev.host.touch == 0 && !s.dev.pst.v4req && s.dev.host.cond == s.dev.condMask &&
  ((List.range 52).all fun v => !bit s.dev.host.pend v || s.dev.vecMasked v) && (s.dev.src 186).cond == s.dev.outLost

/-- The check is sound. -/
theorem ready_ok {s : State} (h : readyB s = true) : s.Ready := by
  simp only [readyB, Bool.and_eq_true, Bool.not_eq_true', beq_iff_eq, List.all_eq_true, List.mem_range, Bool.or_eq_true] at h
  obtain ⟨⟨⟨⟨⟨a, b⟩, c⟩, e⟩, f⟩, g⟩ := h
  exact ⟨a, ⟨b, c, e, fun v hv hp => by
    rcases f v hv with x | x
    · rw [x] at hp; cases hp
    · exact x, g⟩⟩

/-- The Postilion takes an event of source n. -/
theorem hears_ok {d : Dev} {n : Nat} (h : decide (tgetD d.pst.inCclk n 0 < 255) = true) : d.hears n := by
  simpa [Dev.hears] using h

/-- What State.Beats says, as a check. -/
def beatsB (s : State) : Bool :=
  !s.dev.inReset && s.dev.clk.run && s.dev.clk.pllLock && s.dev.pst.chipReq.isNone && s.dev.pair.state != .syncing

/-- The check is sound. -/
theorem beats_ok {s : State} (h : beatsB s = true) : s.Beats := by
  simp only [beatsB, Bool.and_eq_true, Bool.not_eq_true', Option.isNone_iff_eq_none, bne_iff_ne] at h
  obtain ⟨⟨⟨⟨a, b⟩, c⟩, e⟩, f⟩ := h
  exact ⟨a, b, c, e, f⟩

/-- Change coach 1. -/
def withCo (d : Dev) (x : CoachDyn) : Dev := d.setCo 1 x

/-- A key slot of a stage. -/
def slot (n : Nat) : Slot := freshSlot 7 9 n

/-- The device as it stands. -/
def w0 : State := mk base

/-! Witnesses: the whole machine. -/

/-- Front commands, held devices and the command that can stop. -/
def wHeld : State := mk { base with hold := true }
def wJtag : State := mk { base with jtag := ⟨3, [], true⟩ }
def wLost : State := mk { base with clk := { base.clk with pllLock := false } }
def wChip : State := mk { base with pst := { base.pst with chipReq := some 7 } }
def wLast : State := mk { base with clk := { base.clk with cclk := 1199 } }

theorem witness_IdleStepPassesOneCclk :
    w0.Ready ∧ w0.pending = [] ∧ w0.dev.clk.cclk < 1199 ∧ wLast.pending = [] ∧ wLast.dev.clk.cclk = 1199 :=
  ⟨ready_ok (by decide +kernel), by decide +kernel⟩

theorem witness_EveryCommandAnswersNextButBoundary : ∀ i, Instr.idcode ≠ .beatBoundary i := by intro i; exact nofun

theorem witness_BoundaryAfterLockLossStops :
    wLost.dev.inReset = false ∧ wLost.dev.clk.run = true ∧ wLost.dev.clk.pllLock = false ∧ wLost.dev.pst.chipReq = none ∧
    wHeld.dev.inReset = true ∧ State.reset.dev.clk.run = false ∧ w0.dev.clk.pllLock = true ∧ wChip.dev.pst.chipReq ≠ none := by
  decide +kernel

theorem witness_HeldDeviceChangesOutputsOnly :
    wHeld.dev.hold = true ∧ wJtag.dev.jtag.hold = true ∧ Instr.whipFire ≠ .powerOnReset ∧ Instr.whipFire ≠ .powerOnHold ∧
    (∀ n, Instr.whipFire ≠ .chipReset n) ∧ (∀ l, Instr.whipFire ≠ .samplePreload l) ∧
    (∀ o w v, Instr.whipFire ≠ .dbgReg o w v) ∧ ∀ k l w i v, Instr.whipFire ≠ .dbgTbl k l w i v :=
  ⟨by decide, by decide, nofun, nofun, fun _ => nofun, fun _ => nofun, fun _ _ _ => nofun, fun _ _ _ _ _ => nofun⟩

theorem witness_EveryStepKeepsInterruptsSettled :
    let s : State := { w0 with pending := [.idcode] }
    s.Settled ∧ ∃ t, step s = .next t := by
  refine ⟨(ready_ok (s := w0) (by decide +kernel)).settled, ?_⟩
  exact ⟨_, rfl⟩

/-- A CK commit whose flash write is under way. -/
def wCk : State := mk { base with vault := { base.vault with ckBusy := true } }

def wFloorCut : State := mk { base with floor := ⟨3, [none, none], some ⟨9, 5, false, false, false, true⟩⟩ }

theorem witness_ResetsClearEverythingButFlashAndFuses :
    w0.Ready ∧ w0.dev.hold = false ∧ w0.dev.Settled ∧ 1000 ≤ 1000 ∧ 999 < 1000 ∧ w0.dev.pst.chipReq = none ∧
    wChip.dev.inReset = false ∧ wChip.dev.pst.chipReq = some 7 ∧ wCk.dev.ckWriting = true ∧ wCk.dev.boot.flJob = none ∧
    wFloorCut.dev.floor.write.any (fun w => !w.done) = true ∧ wFloorCut.dev.boot.flJob = none :=
  have h := ready_ok (s := w0) (by decide +kernel)
  ⟨h, by decide, h.settled, by decide +kernel⟩

theorem witness_TestPortScansAndHolds :
    w0.dev.hold = false ∧ w0.dev.jtag.hold = false ∧ w0.dev.Settled ∧ wJtag.dev.hold = false ∧ wJtag.dev.jtag.hold = true ∧
    (Instr.clamp, 7) ∈ [(Instr.extest, 3), (.extestPulse, 4), (.extestTrain, 5), (.highz, 6), (.clamp, 7)] :=
  ⟨by decide, by decide, (ready_ok (s := w0) (by decide +kernel)).settled, by decide, by decide, by decide⟩

theorem witness_LockLossClearsLockAndReports :
    w0.Ready ∧ w0.dev.clk.pllLock = true ∧ w0.dev.hears 0 ∧ wLost.Ready ∧ wLost.dev.clk.pllLock = false :=
  ⟨ready_ok (by decide +kernel), by decide, hears_ok (by decide +kernel), ready_ok (by decide +kernel), by decide⟩

/-! Witnesses: starting up. -/

/-- In stage VAULT with attempts made; the fuses hold the check value of P = 0. -/
def wPuf (tries : Nat) : State :=
  let d := early 2
  mk { d with vault := { d.vault with pufTries := tries, engOk := true }
              board := { d.board with otp := { d.board.otp with pufCheck := 0xdc95c078a2408989 } } }

/-- The engine has not passed its test; and a check value that P does not give. -/
def wPufOff : State := mk (early 2)
def wPufBad : State := mk (let d := early 2; { d with vault := { d.vault with engOk := true } })

theorem witness_PufAttemptAcceptsOrCounts :
    (∀ s ∈ [wPuf 0, wPuf 2, wPufBad, wPufOff], s.Ready ∧ s.dev.vault.rootOk = false ∧ s.dev.vault.pufFail = false ∧
      s.dev.boot.vaultEnd = false ∧ s.dev.boot.stage ≠ 15 ∧ 2 ≤ s.dev.boot.stage ∧ s.dev.hears 8 ∧ s.dev.hears 9) ∧
    wPufOff.dev.vault.engOk = false ∧ (wPuf 0).dev.vault.engOk = true ∧ 2304 ≤ 2304 ∧ 2304 < 2305 ∧ 3072 ≤ 3072 ∧ 3072 < 3073 ∧
    otpFits (wPuf 0).dev.board.otp .pufHelper = true ∧ otpFits (wPuf 0).dev.board.otp .pufCheck = true ∧
    (aesEnc (0#256) 0#128).extractLsb' 64 64 = (wPuf 0).dev.board.otp.pufCheck ∧ (wPuf 0).dev.vault.pufTries + 1 ≠ 3 ∧
    (wPuf 2).dev.vault.engOk = true ∧ (wPuf 2).dev.vault.pufTries = 2 ∧ wPufBad.dev.vault.engOk = true ∧
    (aesEnc (0#256) 0#128).extractLsb' 64 64 ≠ wPufBad.dev.board.otp.pufCheck := by
  refine ⟨fun s m => ⟨ready_ok (by revert s; decide +kernel), ?_⟩, by decide +kernel⟩
  unfold Dev.hears
  revert s
  decide +kernel

/-- Before stage CLOCK ends; in stage VAULT; and while the image's channel 0 trains. -/
def wClock : State := mk (early 1)
def wVault : State :=
  let d := early 2
  mk { d with boot := { d.boot with clockEnd := true }, vault := { d.vault with rootOk := true, engOk := true } }
def wTrain : State :=
  let d := early 4
  mk { d with boot := { d.boot with clockEnd := true, flashEnd := true, shadow := [(Reg.key .TBM_CH_CFG [0], 0x80000000#32)] } }

theorem witness_StartStagesAndTraining :
    wClock.Ready ∧ wClock.dev.boot.clockEnd = false ∧ wClock.dev.boot.stage ≠ 15 ∧ wClock.dev.boot.stage ≠ 8 ∧
    wVault.Ready ∧ wVault.dev.boot.clockEnd = true ∧ wVault.dev.boot.vaultEnd = false ∧ wVault.dev.vault.rootOk = true ∧
    wVault.dev.vault.engOk = true ∧ wTrain.Ready ∧ wTrain.dev.boot.flashEnd = true ∧ wTrain.dev.boot.imageEnd = false ∧
    wTrain.dev.shadowed.chEn 0 = true ∧ tgetD wTrain.dev.tbm.ready 0 0 ≠ 1 ∧ wTrain.dev.hears 88 ∧ 1 ≤ 5 ∧ 5 < 6 ∧ 8 ≤ 8 ∧ 7 < 8 :=
  ⟨ready_ok (by decide +kernel), by decide, by decide, by decide, ready_ok (by decide +kernel), by decide, by decide, by decide,
   by decide, ready_ok (by decide +kernel), by decide, by decide, by decide +kernel, by decide, hears_ok (by decide +kernel),
   by decide⟩

def wReadyToRun : State := mk (early 7)
def wAlign : State := mk { base with pair := { base.pair with
  state := .syncing, phase := 1, digests := [readDigest (bytesOfNat 8 77 ++ List.replicate 120 0#8)] } }

/-- The image, and a batch due at the next boundary, give the lead's word a value. -/
def wShadow : State := mk { early 7 with boot := { (early 7).boot with shadow := [(0x30010, 5#32)] } }
def wBatch : State := mk { base with batch := { base.batch with sealed := [⟨1, 6, [.word 0x30010 3]⟩] } }

theorem sched_onlyStaged : onlyStaged 0x30010 := by
  have h : regAt 0x30010 = some (.BEAT_SCHED, []) := by decide +kernel
  refine ⟨.BEAT_SCHED, [], h, by decide, by decide, by decide, by decide, by decide, fun n a => ?_⟩
  simp only [Dev.wordEffect, h]

theorem witness_BeatZeroAndBoundariesCountBeats :
    wReadyToRun.dev.inReset = false ∧ wReadyToRun.dev.boot.stage = 7 ∧ wReadyToRun.dev.halt = false ∧
    wReadyToRun.dev.clk.run = false ∧ w0.dev.Settled ∧ w0.dev.boot.stage ≠ 7 ∧ w0.dev.inReset = false ∧ w0.dev.clk.run = true ∧
    w0.dev.clk.pllLock = true ∧ w0.dev.pst.chipReq = none ∧ ¬ (w0.dev.pair.state = .syncing ∧ w0.dev.pair.phase = 1) ∧
    wAlign.dev.inReset = false ∧ wAlign.dev.clk.run = true ∧ wAlign.dev.clk.pllLock = true ∧ wAlign.dev.pst.chipReq = none ∧
    wAlign.dev.pair.state = .syncing ∧ wAlign.dev.pair.phase = 1 ∧ (∃ m r, wAlign.dev.pair.digests = m :: r) ∧
    wChip.dev.pst.chipReq = some 7 ∧ onlyStaged 0x30010 ∧ isRidgeReg 0x30010 = false ∧ wShadow.dev.inReset = false ∧
    wShadow.dev.boot.stage = 7 ∧ wShadow.dev.clk.run = false ∧ wShadow.dev.boot.shadow.filter (fun e => e.1 == 0x30010) = [(0x30010, 5)] ∧
    (∀ e ∈ wReadyToRun.dev.boot.shadow, e.1 ≠ 0x30010) ∧ wBatch.Beats ∧
    valuesAt 0x30010 ((wBatch.dev.waitingTo wBatch.next).flatMap (·.entries)) = [3] ∧ w0.Beats ∧
    valuesAt 0x30010 ((w0.dev.waitingTo w0.next).flatMap (·.entries)) = [] :=
  ⟨by decide, by decide, by decide, by decide, (ready_ok (s := w0) (by decide +kernel)).settled, by decide, by decide, by decide,
   by decide, by decide, by decide, by decide, by decide, by decide, by decide, by decide, by decide, ⟨_, _, rfl⟩, by decide, sched_onlyStaged, by decide +kernel, by decide,
   by decide, by decide, by decide +kernel, by decide, beats_ok (by decide +kernel), by decide +kernel, beats_ok (by decide +kernel),
   by decide +kernel⟩

/-! Witnesses: coaches. -/

/-- Coach 1, derived, in a switch state, at stage 2. -/
def coachIn (x : CoachDyn) : State := mk (withCo (base.wr .CO_CTL [1] 0xC0000000) { x with stage := 2, slotA := some (slot 2), lo := 1 })
def wGrace : State := coachIn { CoachDyn.init with sw := .grace, grace := 1 }

theorem witness_GraceEndReturnsToOne :
    wGrace.Ready ∧ (wGrace.dev.co 1).sw = .grace ∧ (wGrace.dev.co 1).grace ≤ 1 ∧ wGrace.dev.kind 1 = .derived ∧
    w0.Ready ∧ ¬ ((w0.dev.co 1).sw = .grace ∧ (w0.dev.co 1).grace ≤ 1) :=
  ⟨ready_ok (by decide +kernel), by decide, by decide, by decide +kernel, ready_ok (by decide +kernel), by decide⟩

/-- READY with the floor at 9; and ONE at the hard limit. -/
def wDue : State :=
  let d := { coachIn { CoachDyn.init with sw := .ready, slotB := some (slot 3) } with pending := [] }.dev
  mk { (d.wr .CO_ADV [1] 1) with floor := ⟨9, [none, none], none⟩, clk := { d.clk with count := 2 ^ 20 } }
def wOne : State :=
  mk (((coachIn { CoachDyn.init with sw := .one, hi := 2 ^ 16 }).dev.wr .CO_HARD_LIM [1] 1).wr .CO_SOFT_LIM [1] 1)

theorem witness_DueAdvancesSwitchOrPend :
    wDue.Ready ∧ wDue.dev.fld .CO_ADV [1] 15 0 ≠ 0 ∧ wDue.dev.fld .CO_ADV [1] 15 0 * 2 ^ 20 ≤ wDue.dev.beat - (wDue.dev.co 1).began ∧
    (wDue.dev.co 1).sw = .ready ∧ wDue.dev.floorAllows 1 3 = true ∧ wDue.dev.isThatchCoach 1 = false ∧
    wOne.Ready ∧ wOne.dev.softLim 1 ≤ pnOf (wOne.dev.co 1) ∧ wOne.dev.hardLim 1 ≤ pnOf (wOne.dev.co 1) ∧
    (wOne.dev.co 1).sw = .one ∧ (wOne.dev.co 1).mirBad = false :=
  ⟨ready_ok (by decide +kernel), by decide +kernel, by decide +kernel, by decide +kernel, by decide +kernel, by decide +kernel,
   ready_ok (by decide +kernel), by decide +kernel⟩

/-- Coach 1 of a SOLO device with a code error to be found. -/
def wPnErr (e : PnErr) : Dev := withCo wDue.dev { wDue.dev.co 1 with pnErr := [e] }

theorem witness_PacketNumbersRiseByOne :
    (let s : State := { wDue with pending := [.idcode] }
     s.dev.pair.state ≠ .standby ∧ s.dev.pair.state ≠ .syncing ∧ (∃ t, step s = .next t) ∧ (s.dev.co 1).lo < 65536 ∧
     (s.dev.co 1).hi ≤ (s.dev.co 1).mirror) ∧
    (∀ e, (wPnErr e).actsOnErrors = true ∧ ((wPnErr e).co 1).mirBad = false ∧ ((wPnErr e).co 1).pnErr = [e] ∧
      (((wPnErr e).co 1).mirror + 1) * 65536 < (wPnErr e).hardLim 1) ∧
    (wDue.dev.co 1).pnErr = [] ∧ (wDue.dev.co 1).mirBad = false ∧ (wDue.dev.co 1).lo < 65536 ∧
    pnOf (wDue.dev.co 1) < wDue.dev.hardLim 1 ∧ (wOne.dev.co 1).pnErr = [] ∧ (wOne.dev.co 1).mirBad = false ∧
    (wOne.dev.co 1).lo < 65536 ∧ wOne.dev.hardLim 1 ≤ pnOf (wOne.dev.co 1) :=
  ⟨⟨by decide, by decide, ⟨_, rfl⟩, by decide +kernel, by decide +kernel⟩, fun e => by cases e <;> decide +kernel, by decide +kernel⟩

/-! Witnesses: conditions of the boundary. -/

/-- Time base 0 tracks, with its PPS watchdog run out; throttled and cool; at the alarm's CCLK. -/
def wEdge : State :=
  let d := (base.wr .BEAT_ALARM_CTL [] 1).wr .BEAT_ALARM_LO [] 2000000
  let d := d.wr .TIM_TB_CFG [0] 0x20000000
  mk { d with clk := { d.clk with cclk := 0, count := 2000000 }
              time := { d.time with tb := [(0, { TimeBase.init with state := .track })] }
              power := { d.power with throttle := true, cool := 1048576 } }

/-- A commit has left time base 0 to move to HOLDOVER. -/
def wMove : State := mk { base with time := { base.time with tb := [(0, { TimeBase.init with state := .track, next := some .holdover })] } }

theorem witness_BoundaryConditionsMetAtOnce :
    wMove.Ready ∧ wMove.Beats ∧ ((wMove.dev.tb 0).next = some .holdover ∧ wMove.dev.supv 0 ≠ 2) ∧ wEdge.Ready ∧ w0.Ready ∧ wEdge.dev.hears 96 ∧ wEdge.dev.supvExpired 0 wEdge.dev.beat = true ∧ wEdge.dev.power.throttle = true ∧
    1048576 ≤ wEdge.dev.power.cool ∧ (wEdge.dev.clk.run = true ∧ wEdge.dev.clk.cclk = 0 ∧
      wEdge.dev.flag .BEAT_ALARM_CTL [] 0 = true ∧
      wEdge.dev.beat = wEdge.dev.rd .BEAT_ALARM_LO + wEdge.dev.rd .BEAT_ALARM_HI * 2 ^ 32) ∧
    ¬ w0.dev.supvExpired 0 w0.dev.beat = true ∧ ¬ w0.dev.power.throttle = true ∧ w0.dev.clk.cclk ≠ 0 :=
  ⟨ready_ok (by decide +kernel), beats_ok (by decide +kernel), by decide +kernel, ready_ok (by decide +kernel),
   ready_ok (by decide +kernel), hears_ok (by decide +kernel), by decide +kernel⟩

/-- SYNCING in DRAIN with nothing left; and a mask redraw, then a sweep, due. -/
def wDrain : State := mk { base with pair := { base.pair with state := .syncing, phase := 3 } }
def wRedraw : State := mk { base with clk := { base.clk with count := 2 ^ 20 } }
def wSwept : State := mk { base with vault := { base.vault with sweep := true, sweepPos := 131072 } }

/-- Pair states at beat 5 whose partner is silent; and an ACTIVE in step that holds both digests of beat 4, which differ. -/
def wRole (p : PairState) : State := mk { base with pair := { base.pair with state := p } }
def wDiffer : State := mk { base with pair := { base.pair with
  state := .active, digests := [readDigest (bytesOfNat 8 4 ++ [3#8, 0x40#8] ++ List.replicate 118 1#8)], own := [(4, [])] } }
def pins (role fence : Bool) : BoundaryIn := { BoundaryIn.quiet with role := role, fence := fence, roleNs := 20, fenceNs := 20 }

theorem witness_SyncCompleteLeavesStandbyIntact :
    (∀ p ∈ [PairState.fenced, .solo, .active, .standby], (wRole p).Ready ∧ (wRole p).Beats ∧ (wRole p).dev.partnerOk = false ∧
      (wRole p).dev.silent (wRole p).next = true) ∧ (∀ a b, 20 ≤ (pins a b).roleNs ∧ 20 ≤ (pins a b).fenceNs) ∧
    wDiffer.Ready ∧ wDiffer.Beats ∧ (wDiffer.dev.pair.state = .active ∧ wDiffer.dev.pair.handed = false ∧ wDiffer.dev.inStep = true ∧
      wDiffer.dev.digestDiff (wDiffer.dev.clk.count - 1) = some 4095) ∧
    wDrain.Ready ∧ (wDrain.dev.pair.state = .syncing ∧ wDrain.dev.pair.phase = 3 ∧ wDrain.dev.ghosts = 0) ∧ w0.Ready ∧
    w0.dev.pair.state ≠ .syncing :=
  ⟨fun p m => ⟨ready_ok (by revert p; decide +kernel), beats_ok (by revert p; decide +kernel), by revert p; decide +kernel,
    by revert p; decide +kernel⟩, fun _ _ => ⟨Nat.le_refl _, Nat.le_refl _⟩, ready_ok (by decide +kernel), beats_ok (by decide +kernel),
   by decide +kernel, ready_ok (by decide +kernel), by decide +kernel, ready_ok (by decide +kernel), by decide⟩

theorem witness_MasksAreRedrawnAndSwept :
    wRedraw.Ready ∧ (sweepDue wRedraw.dev.beat = true ∧ wRedraw.dev.vault.trngOk = true ∧ wRedraw.dev.vault.sweep = false) ∧
    wSwept.Ready ∧ wSwept.dev.vault.sweep = true ∧ 131072 ≤ wSwept.dev.vault.sweepPos ∧ w0.Ready ∧
    ¬ sweepDue w0.dev.beat = true ∧ w0.dev.vault.sweep = false :=
  ⟨ready_ok (by decide +kernel), by decide +kernel, ready_ok (by decide +kernel), by decide, by decide,
   ready_ok (by decide +kernel), by decide, by decide⟩

/-- The random numbers failed and have passed their tests since. -/
def wTrng : State := mk { base with vault := { base.vault with trngOk := false, trngRun := 2 ^ 20 + 1 } }

/-- The test's job stands at the head of the queue, with its last block to end at CCLK 1,024. -/
def wKat : State := mk { base with vault := { base.vault with jobs := [⟨.knownAnswer, true, 0, 0, 2, 512⟩] } }

theorem witness_SelfTestsPassAndFail :
    wVault.Ready ∧ wVault.dev.clk.run = false ∧ wVault.dev.hears 11 ∧ wKat.Ready ∧ wKat.dev.clk.run = true ∧ wKat.dev.hears 11 ∧
    (∃ j rest, wKat.dev.vault.jobs = j :: rest ∧ j.work = .knownAnswer ∧ wKat.dev.jobEnds j = some 1024) ∧
    w0.Ready ∧ w0.dev.clk.run = true ∧ (∀ j ∈ w0.dev.vault.jobs.head?, j.work ≠ .knownAnswer) ∧ wTrng.Ready ∧
    wTrng.dev.vault.trngOk = false ∧ 2 ^ 20 < wTrng.dev.vault.trngRun :=
  ⟨ready_ok (by decide +kernel), by decide, hears_ok (by decide +kernel), ready_ok (by decide +kernel), by decide,
   hears_ok (by decide +kernel), ⟨_, _, rfl, by decide, by decide +kernel⟩, ready_ok (by decide +kernel), by decide,
   by decide, ready_ok (by decide +kernel), by decide, by decide⟩

/-- A derivation queued for coach 1; a probe slot 1,024 beats old; a floor written 65,536 beats ago, one
written late, one not yet due and one not written. -/
def wDerive : State := mk { base with
  vault := { base.vault with drv := [⟨1, 2, none⟩], ck := [(0, 5)] }
  coach := { base.coach with probe := [(2, ⟨1, 9, some (slot 9), 5⟩), (3, ⟨1, 10, none, 5⟩)] }
  floor := ⟨3, [none, none], some ⟨9, 5, true, true, false, true⟩⟩
  clk := { base.clk with count := 65541 } }
def wFloorSlow : State := mk { wDerive.dev with floor := ⟨3, [none, none], some ⟨9, 5, true, false, false, false⟩⟩ }
def wFloorNew : State := mk { wDerive.dev with floor := ⟨3, [none, none], some ⟨9, 6, true, true, false, true⟩⟩ }
def wFloorLate : State := mk { wDerive.dev with floor := ⟨3, [none, none], some ⟨9, 5, false, false, false, true⟩⟩ }

theorem witness_StageKeysDerivedProbedAndFloored :
    (∀ s ∈ [wDerive, wFloorSlow, wFloorNew, wFloorLate], s.Ready ∧ s.dev.hears 15) ∧ wDerive.dev.clk.run = true ∧
    wDerive.dev.vault.engOk = true ∧ wDerive.dev.vault.drvBeat = false ∧ wDerive.dev.vault.drvDone = none ∧
    wDerive.dev.vault.drv = [⟨1, 2, none⟩] ∧ tget wDerive.dev.vault.ck (wDerive.dev.ckIndex 1) = some 5 ∧
    tget wDerive.dev.coach.probe 2 = some ⟨1, 9, some (slot 9), 5⟩ ∧ 5 + 1024 ≤ wDerive.dev.beat ∧ (wDerive.dev.co 1).jump ≠ some 2 ∧
    tget wDerive.dev.coach.probe 3 = some ⟨1, 10, none, 5⟩ ∧ wDerive.dev.partnerState = false ∧
    wDerive.dev.floor.write = some ⟨9, 5, true, true, false, true⟩ ∧ 5 + 65536 ≤ wDerive.dev.beat ∧
    wFloorSlow.dev.floor.write = some ⟨9, 5, true, false, false, false⟩ ∧ wFloorSlow.dev.partnerState = false ∧
    wFloorLate.dev.floor.write = some ⟨9, 5, false, false, false, true⟩ ∧ wFloorNew.dev.floor.write = some ⟨9, 6, true, true, false, true⟩ ∧
    wFloorNew.dev.beat < 6 + 65536 :=
  ⟨fun s m => ⟨ready_ok (by revert s; decide +kernel), by revert s; unfold Dev.hears; decide +kernel⟩, by decide +kernel⟩

/-- The same with a further commit waiting. -/
def wCkPend : State := mk { base with vault := { base.vault with ckBusy := true, ckPend := true } }

theorem witness_FlashWritesOfFloorAndKeysEnd :
    wFloorLate.Ready ∧ wFloorLate.dev.floor.write = some ⟨9, 5, false, false, false, true⟩ ∧ w0.Ready ∧ w0.dev.floor.write = none ∧
    wDerive.Ready ∧ wDerive.dev.floor.write = some ⟨9, 5, true, true, false, true⟩ ∧
    (∀ b : Bool, let s := if b then wCkPend else wCk
      s.Ready ∧ s.dev.vault.ckBusy = true ∧ s.dev.vault.engOk = true ∧ (∀ j ∈ s.dev.vault.jobs, j.work ≠ .ckCommit) ∧
      s.dev.vault.ckSnap.length ≤ 4096 ∧ s.dev.vault.ckPend = b ∧ s.dev.ckTarget.2 ≠ 0xFFFFFFFF) ∧
    w0.dev.vault.ckBusy = false := by
  refine ⟨ready_ok (by decide +kernel), by decide +kernel, ready_ok (by decide +kernel), by decide, ready_ok (by decide +kernel),
    by decide +kernel, fun b => ?_, by decide⟩
  cases b <;> exact ⟨ready_ok (by decide +kernel), by decide +kernel⟩

/-! Witnesses: ports and pipes. -/

/-- Client port C0 sends its misses in clear to L0; both are up, at 100 Gbit/s, with the Loft's bank 0 on. -/
def portsUp : Dev :=
  let d := ((base.wr .CLS_PORT [0] 0x8000001).wr .DRY_CPORT_CTL [0, 0] 0xA0000000).wr .DRY_LPORT_CTL [0, 0] 0x80000000
  let d := d.wr .PWR_DOM_CTL_LOFT [0] 0x80000000
  { d with ports := { d.ports with dyn := [(0, { PortDyn.init with linkUp := true }), (32, { PortDyn.init with linkUp := true })] }
           power := { d.power with dom := [0, 4, 5, 6, 13, 17, 30].map fun x => (x, ⟨.on, false, 0, false⟩) } }

/-- A frame of 64 bytes with a good FCS. -/
def frame : Bytes := finishFrame (List.replicate 6 2#8 ++ List.replicate 6 4#8 ++ [8#8, 1#8])

/-- A unit of beat 3 that stands on a slot. -/
def arrival (p : Nat) (b : Bytes) : Arrival :=
  { port := p, beat := 3, index := 0, offset := 7, phi := 1, rts := [0, 0, 0, 0], bytes := b, len := b.length, sum := 0, void := false,
    taken := false, lat := 6, ord := 0, held := false }

def wPorts : State := mk portsUp

theorem witness_ArrivalIsNumberedAndStamped :
    wPorts.Ready ∧ (let e := wPorts.at 700
      e.clk.run = true ∧ e.still = false ∧ 0 < 64 ∧ 3 < 4 ∧ frame ≠ [] ∧ e.assigns 0 = true ∧ e.follows = false ∧
      e.thatchMode 0 = false ∧ e.assigns 1 = false) :=
  ⟨ready_ok (by decide +kernel), by decide +kernel⟩

def wLt : State := mk (portsUp.wr .DRY_CPORT_CTL [0, 0] 0x90000000)

/-- Group 2 in a mode in which its second client port is none. -/
def wNoPort : State := mk (base.wr .DRY_GROUP [2] 2)

theorem witness_PortsShowWhatTheyPresent :
    wLt.Ready ∧ wNoPort.Ready ∧ 0 < 64 ∧ 63 < 64 ∧ 17 < 64 ∧ wLt.dev.exists_ 0 = true ∧ wNoPort.dev.exists_ 17 = false ∧
    wLt.dev.ltEn 0 = true ∧ wLt.dev.ltEn 63 = false :=
  ⟨ready_ok (by decide +kernel), ready_ok (by decide +kernel), by decide +kernel⟩

/-- A good client frame of two beats ago, and a bad one. -/
def wOut (b : Bytes) : State := mk { portsUp with ports := { portsUp.ports with arrivals := [arrival 0 b] } }

theorem witness_OutboundPipeCarriesOrCounts :
    (wOut frame).Ready ∧ (let s := wOut frame
      let a := arrival 0 frame
      0 < 4 ∧ s.dev.clk.run = true ∧ s.dev.still = false ∧ 2 ≤ s.dev.beat ∧ s.dev.relayDue 0 = [] ∧
      (s.dev.domain (obDom 0)).state = .on ∧
      s.dev.arrivalsOf (s.dev.beat - 2) (fun a => !isLine a.port && drayOf a.port == 0 && !a.taken && decide (2 ≤ s.dev.beat)) = [a] ∧
      (let e : Dev := ({ s.dev with
        out := [], tbm := { s.dev.tbm with used := tputN s.dev.tbm.used 24 1 },
        loft := { s.dev.loft with relayNext := tputN s.dev.loft.relayNext (4 + 0) (s.dev.beat * 1200) } } : Dev).takeArrival a
       let u := parse a.bytes (e.clsPort a.port 11 0)
       checkFrame a.len a.bytes = 0 ∧ field a.bytes 12 2 ≠ 0x8808 ∧ e.classifyUnit a.port u = (e, .miss, none)) ∧
      bits (s.dev.ctl a.port) 30 29 = 1 ∧ s.dev.boundLine a.port = none ∧ s.dev.obRoute 0 32 = true ∧
      tgetD s.dev.ports.units 0 0 + 1 ≤ s.dev.pipeLimit.1 ∧ tgetD s.dev.ports.bytes 0 0 + a.len ≤ s.dev.pipeLimit.2) ∧
    (wOut [1#8]).Ready ∧ checkFrame 1 [1#8] ≠ 0 ∧ (wOut [1#8]).dev.exists_ 0 = true :=
  ⟨ready_ok (by decide +kernel), by decide +kernel, ready_ok (by decide +kernel), by decide +kernel⟩

/-- The port's misses go under coach 1, which may send, or has chocked. -/
def wProtect (chock : Bool) : State :=
  let d := (portsUp.wr .DRY_CPORT_CTL [0, 0] 0xC0000001).wr .CO_CTL [1] 0xC0000000
  mk (withCo { d with ports := { d.ports with arrivals := [arrival 0 frame] } }
    { CoachDyn.init with sw := .one, stage := 2, slotA := some (slot 2), lo := 1, chock := chock })

theorem witness_OutboundPipeCarriesOrCounts_protect : ∀ chock,
    (wProtect chock).Ready ∧ (let s := wProtect chock
      let a := arrival 0 frame
      s.dev.clk.run = true ∧ s.dev.still = false ∧ 2 ≤ s.dev.beat ∧ s.dev.relayDue 0 = [] ∧ (s.dev.domain (obDom 0)).state = .on ∧
      s.dev.arrivalsOf (s.dev.beat - 2) (fun a => !isLine a.port && drayOf a.port == 0 && !a.taken && decide (2 ≤ s.dev.beat)) = [a] ∧
      (let e : Dev := ({ s.dev with
        out := [], tbm := { s.dev.tbm with used := tputN s.dev.tbm.used 24 1 },
        loft := { s.dev.loft with relayNext := tputN s.dev.loft.relayNext (4 + 0) (s.dev.beat * 1200) } } : Dev).takeArrival a
       checkFrame a.len a.bytes = 0 ∧ field a.bytes 12 2 ≠ 0x8808 ∧
       e.classifyUnit a.port (parse a.bytes (e.clsPort a.port 11 0)) = (e, .miss, none)) ∧
      bits (s.dev.ctl a.port) 15 0 = 1 ∧ bits (s.dev.ctl a.port) 30 29 = 2 ∧ s.dev.boundLine a.port = none ∧
      s.dev.obRoute 0 (s.dev.egrPort 1) = true ∧ s.dev.fld .CO_ADV [1] 27 16 = 0 ∧ a.len + overhead (s.dev.tagForm 1) ≤ 9216 ∧
      ptpAt a.bytes = none ∧ tgetD s.dev.ports.units 0 0 + 1 ≤ s.dev.pipeLimit.1 ∧
      tgetD s.dev.ports.bytes 0 0 + (a.len + overhead (s.dev.tagForm 1)) ≤ s.dev.pipeLimit.2 ∧ a.len = a.bytes.length ∧
      (let v := s.dev.co 1
       s.dev.canSend 1 = !chock ∧ slotFor v v.stage = some (slot 2) ∧ v.pnErr = [] ∧ v.mirBad = false ∧ v.lo < 65536 ∧
       pnOf v < s.dev.hardLim 1)) := by
  intro c
  cases c
  · exact ⟨ready_ok (by decide +kernel), by decide +kernel⟩
  · exact ⟨ready_ok (by decide +kernel), by decide +kernel⟩

/-- A frame of coach 1 with the explicit SecTAG of AN 2 and PN 5. -/
def tagged : Bytes := finishFrame (List.replicate 6 2#8 ++ List.replicate 6 4#8 ++ secTag 1 0 0x20001 2 5 64 ++ List.replicate 80 1#8)

/-- Coach 1 receives on L0. -/
def wIn : State :=
  let d := (portsUp.wr .CO_CTL [1] 0x41000000).wr .CO_SCI [1, 2] 0x20001
  let d := withCo d { CoachDyn.init with sw := .one, stage := 2, slotA := some (slot 2) }
  mk { d with ports := { d.ports with arrivals := [arrival 32 tagged] } }

set_option maxRecDepth 20000 in
theorem witness_InboundFramesAreVerifiedOnTime_start :
    wIn.Ready ∧ (let e := wIn.at 600
      let a := arrival 32 tagged
      e.clk.run = true ∧ e.still = false ∧ isLine 32 = true ∧ 32 < 64 ∧ e.thatchMode 32 = false ∧ e.ibWorks (drayOf 32) = true ∧
      e.nextStart 32 = some a ∧ e.ibAdmitted a = true ∧ checkFrame a.len a.bytes = 0 ∧
      (let body := a.bytes.take (a.bytes.length - 4)
       let f := ((e.takeArrival a).ibAdd (drayOf a.port) 1 a.len).pmcEvent (4 + drayOf a.port) 2 (some a.port)
       let g := readTag body 12
       findTag body = some 12 ∧ g.badEarly = false ∧ f.rxCoach (portNo a.port) g = 1 ∧
       f.coachReceives (portNo a.port) 1 g (field body 6 6) = true)) :=
  ⟨ready_ok (by decide +kernel), by decide +kernel⟩

/-- A verdict that is due, with a good or a bad tag. -/
def verdict (ok : Bool) : PendingVerdict :=
  { port := 32, at_ := 6600, beat := 3, index := 0, result := .ok, tagOk := ok, coach := 1, stage := 2, probe := false, pnLow := 5,
    pn := 5, replayEn := true, replayWin := 0, octets := 64, macCtl := false, route := false, relay := false, learn := none,
    probeReq := none }
def wVerdict (ok : Bool) : State := mk { wIn.dev with ports := { wIn.dev.ports with verdicts := [verdict ok] } }

theorem witness_InboundFramesAreVerifiedOnTime_verdict : ∀ ok,
    (wVerdict ok).Ready ∧ (let e := (wVerdict ok).at 600
      e.still = false ∧ e.ports.verdicts.find? (fun v => v.port == 32 && decide (v.at_ ≤ e.now)) = some (verdict ok) ∧
      (verdict ok).probe = false ∧ (verdict ok).macCtl = false ∧ (verdict ok).relay = false ∧ (verdict ok).learn = none ∧
      (verdict ok).probeReq = none ∧ slotFor (e.co 1) 2 = some (slot 2) ∧
      (let f : Dev := { e with ports := { e.ports with verdicts := e.ports.verdicts.filter (· != verdict ok) } }
       f.verdictResult (verdict ok) = (if ok = true then .ok else .tagFail) ∧ f.unitsFor (verdictKey (verdict ok)) = [])) := by
  intro ok
  cases ok
  · exact ⟨ready_ok (by decide +kernel), by decide +kernel⟩
  · exact ⟨ready_ok (by decide +kernel), by decide +kernel⟩

/-- L0 is a Thatch port that carries C0. -/
def thatchUp (x : ThatchDyn) : Dev :=
  let d := portsUp.wr .DRY_LPORT_CTL [0, 0] 0xA0000000
  { d with ports := { d.ports with thatch := [(0, x)] } }

def wSend : State := mk (thatchUp { thatchInit with txOn := true, txNext := 500 * 6600 })
/-- Its next start is still to come. -/
def wSendLater : State := mk (thatchUp { thatchInit with txOn := true, txNext := 500 * 9000 })

theorem witness_SuperframesAreSentBackToBack :
    (∀ s ∈ [wSend, wSendLater], s.Ready ∧ (let e := s.at 600
      e.clk.run = true ∧ e.halt = false ∧ e.still = false ∧ (e.thatch 0).txOn = true ∧ e.en 32 = true ∧ e.thatchMode 32 = true ∧
      e.domOn (serdesDom 32) = true)) ∧
    (let e := wSend.at 600
     txCclk (e.thatch 0).txNext (e.rate 32) 0 ≤ e.now ∧ e.exists_ 32 = true ∧ e.sendsAis 0 = true ∧ (e.thatch 0).txSf = none ∧
     (e.thatch 0).txLeft = [] ∧ (e.thatch 0).txOwner = none ∧ e.dueVerdicts = e ∧ ∀ i, i < 8 → e.queue (8 * 32 + i) = []) ∧
    (let e := wSendLater.at 600
     ¬ txCclk (e.thatch 0).txNext (e.rate 32) 0 ≤ e.now) :=
  ⟨fun s m => ⟨ready_ok (by revert s; decide +kernel), by revert s; decide +kernel⟩, by decide +kernel⟩

/-- L0 in SYNC with three misses, position 40 expected. -/
def wSync : State := mk (thatchUp { thatchInit with align := .sync, expect := 40, misses := 3 })
/-- A position that starts with the FAW, and one that neither starts with it nor has a fitting HCRC. -/
def withFaw : Bytes := bytesOfNat 8 faw ++ List.replicate 24 0#8
def without : Bytes := List.replicate 31 0#8 ++ [1#8]

theorem witness_AlignerKeepsOrLosesSync :
    wSync.Ready ∧ 0 < 32 ∧ 3 < 4 ∧ (let e := wSync.at 600
      e.clk.run = true ∧ e.still = false ∧ e.exists_ 32 = true ∧ e.thatchMode 32 = true ∧ e.phyDown 0 = false ∧
      (e.thatch 0).align = .sync ∧ e.assigns 32 = true ∧ e.follows = false ∧ (e.thatch 0).expect = 40 ∧ (e.thatch 0).misses + 1 = 4 ∧
      39 ≠ (e.thatch 0).expect) ∧
    (readHdr (withFaw.take sfBytes)).isFaw = true ∧
    ((readHdr (without.take sfBytes)).isFaw = false ∧ (readHdr (without.take sfBytes)).fits = false) :=
  ⟨ready_ok (by decide +kernel), by decide, by decide, by decide +kernel⟩

/-- A position of two beats ago on L0, void or a superframe of coach 1, stage 2, SEQ 5. -/
def superframe : Bytes := hdrWhole (hdrStart 0 0x80 1 2 5 0) [0#8, 0#8]
def wRx (void : Bool) : State :=
  let d := withCo ((thatchUp thatchInit).wr .CO_CTL [1] 0x40000000) { CoachDyn.init with sw := .one, stage := 2, slotA := some (slot 2) }
  mk { d with ports := { d.ports with arrivals := [{ arrival 32 superframe with void := void }] } }

theorem witness_SuperframesAreVerifiedOnTime_receive : ∀ void,
    (wRx void).Ready ∧ (let e := (wRx void).at 600
      let a := { arrival 32 superframe with void := void }
      e.clk.run = true ∧ e.still = false ∧ e.thatchMode 32 = true ∧ e.ibWorks (drayOf 32) = true ∧ e.nextStart 32 = some a ∧
      (void = false →
        let f := if e.ibAdmitted a then (e.takeArrival a).ibAdd (drayOf 32) 0 sfBytes else e.takeArrival a
        f.sfCheck 0 (readHdr a.bytes) = (.go, some (slot 2, false)))) := by
  intro v
  cases v
  · exact ⟨ready_ok (by decide +kernel), by decide +kernel⟩
  · exact ⟨ready_ok (by decide +kernel), by decide +kernel⟩

/-- A superframe verdict that is due. -/
def sfVerdict (ok : Bool) : PendingSf :=
  { port := 32, at_ := 6600, ord := 0, ok := ok, reached := true, tagFail := !ok, coach := 1, stage := 2, seq := 5, probe := false,
    alarm := 0x6000, nxt := true, octets := 16432 }
def wSf (ok : Bool) : State :=
  mk { (wRx true).dev with ports := { (wRx true).dev.ports with sfs := [sfVerdict ok] } }

/-- The same, of a slot that a code error has closed. -/
def wSfShut (ok : Bool) : State :=
  mk (withCo (wSf ok).dev { CoachDyn.init with sw := .one, stage := 2, slotA := some { slot 2 with rxBad := true } })

theorem witness_SuperframesAreVerifiedOnTime_verdict : ∀ ok,
    (wSf ok).Ready ∧ (wSfShut ok).Ready ∧ (∀ s ∈ [wSf ok, wSfShut ok], let e := s.at 600
      e.still = false ∧ e.ports.sfs.find? (fun v => v.port == 32 && decide (v.at_ ≤ e.now)) = some (sfVerdict ok) ∧
      (e.thatch 0).live = [] ∧ (sfVerdict ok).probe = false ∧ ((sfVerdict ok).ok = ok ∧ (sfVerdict ok).tagFail = !ok)) ∧
    (let e := (wSf ok).at 600
     slotFor (e.co 1) 2 = some (slot 2) ∧ (slot 2).rxBad = false ∧ e.slotShut 1 2 = false) ∧ ((wSfShut ok).at 600).slotShut 1 2 = true := by
  intro ok
  cases ok
  · exact ⟨ready_ok (by decide +kernel), ready_ok (by decide +kernel), by decide +kernel⟩
  · exact ⟨ready_ok (by decide +kernel), ready_ok (by decide +kernel), by decide +kernel⟩

/-! Witnesses: the Loft. -/

/-- A unit for L0, class 0, of beat 3, pushed and due. -/
def unit : Pkt :=
  { ingress := 0, beat := 3, index := 0, offset := 7, rts := [0, 0, 0, 0], eave := 3607, bytes := frame, egress := 32, tc := 0, coach := 0,
    due := 6500, held := 64, cells := [0], pipe := 0, proc := 5, read := true, pushAt := 6400, wrDiv := 0, wrStep := 0, wrFrom := 0,
    split := 0, wrNext := 0, notBefore := 0, planned := false, actual := false, ghost := false }

def wPush : State := mk { portsUp with loft := { portsUp.loft with toPush := [(0, [{ unit with cells := [] }])] } }
/-- The queue takes no unit. -/
def wFull : State := mk (wPush.dev.wr .LOFT_QLIM_U [256] 0)
/-- A relay unit, re-encrypted, with its relay queue; and one whose verdict has taken it out of there. -/
def wRelay : State := mk { portsUp with loft := { portsUp.loft with
  toPush := [(8, [{ unit with cells := [] }])], relay := [(0, [unit])] } }
def wRelayGone : State := mk { portsUp with loft := { portsUp.loft with toPush := [(8, [{ unit with cells := [] }])] } }

theorem witness_PushesEnterTheQueueInOrder :
    (∀ s ∈ [wPush, wFull, wRelay, wRelayGone, w0], s.Ready ∧ (s.at 600).still = false) ∧ (w0.at 600).pushChoice 0 = none ∧
    (let u := { unit with cells := [] }
     (∀ s ∈ [wPush, wFull], (s.at 600).pushChoice 0 = some u ∧ (let b := (s.at 600).leaves u.egress
        b.pushChoice 0 = some u ∧ u.pipe ≠ 16 ∧ b.exists_ u.egress = true ∧
        (let left := (tgetD b.loft.toPush 0 []).filter fun v => !sameUnit u v
         let f : Dev := { b with loft := { b.loft with
          toPush := tput b.loft.toPush [] 0 (if 0 < 4 ∧ isLine u.ingress = false then pushAfter (b.now + 1) left else left)
          lastPush := tset b.loft.lastPush (queueOf u) b.now } }
         f.oversize u.egress u.tc u.held = false ∧ (f.admitCause (queueOf u) u.held = if s = wPush then 0 else 1)))) ∧
      (∀ s ∈ [wRelay, wRelayGone], let e := s.at 600
       (let v := e.dueVerdicts.relayEarly 0
        tgetD v.loft.toPush (8 + 0) [] = [u] ∧ u.pushAt ≤ v.now ∧
        let g : Dev := { v with loft := { v.loft with toPush := tput v.loft.toPush [] (8 + 0) [] } }
        (g.relayQ 0).find? (sameUnit u) = (if s = wRelay then some unit else none) ∧ u.held ≠ 0 ∧ u.bytes ≠ [] ∧
        (let b := (g.relayPop 0 u fun j => g.now + (min (256 * (j + 1)) unit.held + 127) / 128).leaves u.egress
         let f : Dev := { b with loft := { b.loft with lastPush := tset b.loft.lastPush (queueOf u) b.now } }
         b.pushBlocked u = false ∧ b.exists_ u.egress = true ∧ f.oversize u.egress u.tc u.held = false ∧
         f.admitCause (queueOf u) u.held = 0)))) :=
  ⟨fun s m => ⟨ready_ok (by revert s; decide +kernel), by revert s; decide +kernel⟩, by decide +kernel⟩

/-- A queue of L0, or of C0 which does not send. -/
def queued (q : Nat) (l : List QEntry) : State := mk { portsUp with loft := { portsUp.loft with queues := [(q, l)] } }
def wGap : State := queued 256 [.gap 6600 0 7 0 3]
def wGaps : State := queued 256 [.gap 6599 0 7 0 3, .gap 6600 0 8 0 2]
def wStuck : State := mk ((queued 0 [.unit unit]).dev.wr .DRY_CPORT_CTL [0, 0] 0)

theorem witness_MarkersAndReleaseDropsLeaveTheQueue :
    (∀ s ∈ [wGap, wGaps, wStuck, wPorts], s.Ready) ∧ ((wGap.at 600).packAll.queue 256 = [.gap 6600 0 7 0 3] ∧ 6600 ≤ (wGap.at 600).packAll.now) ∧
    ((wGaps.at 600).packAll.queue 256 = [.gap 6599 0 7 0 3, .gap 6600 0 8 0 2] ∧ 6600 ≤ (wGaps.at 600).packAll.now) ∧
    ((wGap.at 599).packAll.queue 256 = [.gap 6600 0 7 0 3] ∧ (wGap.at 599).packAll.now < 6601) ∧ (let f := (wStuck.at 600).dueVerdicts
      f.clk.run = true ∧ f.still = false ∧ f.exists_ 0 = true ∧ ¬ (f.en 0 = true ∧ (f.port 0).linkUp = true) ∧
      f.queue (8 * 0 + 0) = [.unit unit] ∧ unit.due ≤ f.now ∧ ∀ i, i < 8 → i ≠ 0 → f.queue (8 * 0 + i) = []) ∧
    (let f := (wPorts.at 600).dueVerdicts
     f.clk.run = true ∧ f.still = false ∧ f.exists_ 0 = true ∧ f.en 0 = true ∧ (f.port 0).linkUp = true) :=
  ⟨fun s m => ready_ok (by revert s; decide +kernel), by decide +kernel⟩

/-- A unit at the head of L0's queue; one under way; and one under way of which nothing more is written. -/
def wHead : State := queued 256 [.unit unit]
def under (u : Pkt) (s : Nat) : State := mk { portsUp with loft := { portsUp.loft with tx := [(32, ⟨u, s, none⟩)] } }
def slow : Pkt := { unit with held := 200, bytes := List.replicate 200 1#8, wrDiv := 1, wrStep := 1, wrFrom := 6560, split := 200, pushAt := 6500 }

theorem witness_UnitsStartEndAndUnderrun :
    wHead.Ready ∧ (under unit 6500).Ready ∧ (under unit 6600).Ready ∧ (under slow 6595).Ready ∧ (let e := (wHead.at 600).dueVerdicts
      e.clk.run = true ∧ e.halt = false ∧ e.sends 32 = true ∧ e.thatchMode 32 = false ∧ (e.port 32).freeAt ≤ e.now ∧
      e.chosen 32 e.now = some (256, unit) ∧ unit.ghost = false ∧ unit.actual = false ∧
      (unit.planned = true → e.now ≤ unit.due) ∧ isLine unit.ingress = false) ∧
    (∀ j due a o ix n r, j < 8 → (wHead.at 600).dueVerdicts.queue (8 * 32 + j) ≠ .gap due a o ix n :: r) ∧ (let e := (under unit 6500).at 600
      tget e.loft.tx 32 = some ⟨unit, 6500, none⟩ ∧ 6500 + lineCclk (e.rate 32) unit.held ≤ e.now) ∧ (let e := (under unit 6600).at 600
      e.now < 6600 + lineCclk (e.rate 32) unit.held) ∧ (let e := (under slow 6595).at 600
      tget e.loft.tx 32 = some ⟨slow, 6595, none⟩ ∧ written slow e.now < slow.held ∧
      written slow e.now < handed (e.rate 32) 6595 e.now) := by
  refine ⟨ready_ok (by decide +kernel), ready_ok (by decide +kernel), ready_ok (by decide +kernel), ready_ok (by decide +kernel),
    by decide +kernel, ?_, by decide +kernel⟩
  intro j due a o ix n r hj h
  have : ∀ j, j < 8 → ∀ x ∈ (wHead.at 600).dueVerdicts.queue (8 * 32 + j), x = .unit unit := by decide +kernel
  have := this j hj _ (h ▸ List.mem_cons_self)
  cases this

/-! Witnesses: classification and table memory. -/

/-- All channels enabled; a step of Dray 0 is to place its entry in slot 1 of bucket 6. -/
def tables : Dev :=
  (List.range 8).foldl (fun d c => d.wr .TBM_CH_CFG [c] 0x80010000) base
def mig : MigStep :=
  { idx := 3, entry := ⟨.exact 77, .hostInsert, 5, false, none⟩, lines := [6, 9], gens := [(6, 0), (9, 0)],
    flip := .place 6 1 true false, ready := false, next := 0, skip := false }
def wMig : State := mk { tables with cls := [(0, { ClsDray.init with steps := [mig] })] }

/-- Dray 0 at beat 7,679: its step ready to flip; an aging period of 256, at bucket 30 with LEARNED positions seen and idle; and a
learning event of a key that it does not hold. -/
def classing (age : Nat) (x : ClsDray) (l : List LearnEvent) : State :=
  let d := (List.range 8).foldl (fun d c => d.wr .TBM_CH_CFG [c] 0x80010000) portsUp
  let d := (d.wr .CLS_AGE [] age).wr .CLS_LIMIT [0] 5
  mk { d with cls := [(0, x)], ports := { d.ports with learn := l }, clk := { d.clk with count := 7679 } }
def wFlip : State := classing 0 { ClsDray.init with steps := [{ mig with ready := true }], ovf := [(3, mig.entry)] } []
def wAge : State := classing 256 { ClsDray.init with pos := [(120, 3), (121, 2)] } []
def event : LearnEvent := ⟨0, 7677, 0, 0, 77, 1⟩
def wLearn : State := classing 0 ClsDray.init [event]

theorem witness_MigrationWritesTheLineItPlanned :
    (∀ s ∈ [wFlip, wAge, wLearn], s.Ready ∧ s.Beats ∧ (s.dev.domain (obDom 0)).state = .on ∧ s.dev.waitingTo s.next = []) ∧
    ((wFlip.dev.dray 0).steps = [{ mig with ready := true }] ∧ tget (wFlip.dev.dray 0).ovf 3 = some mig.entry ∧
      wFlip.dev.fld .CLS_AGE [] 9 0 = 0 ∧ wFlip.dev.ports.learn = []) ∧
    ((wAge.dev.dray 0).steps = [] ∧ wAge.dev.ports.learn = [] ∧ wAge.dev.fld .CLS_AGE [] 9 0 = 256 ∧ wAge.next % 256 = 0 ∧
      posOf (wAge.dev.dray 0) (wAge.next / 256 % 2 ^ 20) 0 = 3 ∧ posOf (wAge.dev.dray 0) (wAge.next / 256 % 2 ^ 20) 1 = 2) ∧
    (let x := wLearn.dev.dray 0
     x.steps = [] ∧ wLearn.dev.fld .CLS_AGE [] 9 0 = 0 ∧ wLearn.dev.ports.learn = [event] ∧ event.cport / 8 = 0 ∧
     wLearn.dev.clsOn 0 = true ∧ ovfHost x (.exact event.key) = none ∧ ovfLearned x (.exact event.key) = none ∧
     wLearn.dev.cachedSlot 0 event.key = none ∧ wLearn.dev.rd .CLS_LCOUNT [event.cport] < wLearn.dev.fld .CLS_LIMIT [event.cport] 22 0 ∧
     (freeLearned x).isSome = true) ∧
    wMig.Ready ∧ 0 < 4 ∧ wMig.dev.clsOn 0 = true ∧ wMig.dev.clk.run = true ∧ (wMig.dev.dray 0).steps = [mig] ∧
    mig.ready = false ∧ mig.flip = .place 6 1 true false ∧ 0 < wMig.dev.opsLeft (idChan 0 6) ∧ w0.Ready ∧ w0.dev.clsOn 0 = false ∧
    (wMig.dev.dray 1).steps = [] ∧ (wMig.dev.dray 1).ovf = [] :=
  ⟨fun s m => ⟨ready_ok (by revert s; decide +kernel), beats_ok (by revert s; decide +kernel), by revert s; decide +kernel,
    by revert s; decide +kernel⟩, by decide +kernel, by decide +kernel, by decide +kernel, ready_ok (by decide +kernel), by decide, by decide +kernel, by decide +kernel, by decide +kernel, by decide, by decide,
   by decide +kernel, ready_ok (by decide +kernel), by decide +kernel⟩

/-- A calibration read of channel 2 due since beat 5, at beat 69. -/
def wCal : State := mk { tables with
  clk := { tables.clk with count := 69 }, tbm := { tables.tbm with calDue := [(2, 6)], margin := [(2, 2)] } }

theorem witness_LineFailuresAndCalibration :
    wCal.Ready ∧ 2 < 8 ∧ wCal.dev.chEn 2 = true ∧ wCal.dev.hears (72 + 2) ∧ wCal.dev.hears (64 + 2) ∧ wCal.dev.hears (88 + 2) ∧
    tgetD wCal.dev.tbm.calDue 2 0 ≠ 0 ∧ 0 < wCal.dev.opsLeft 2 ∧ 2 ≤ 2 ∧ 1 < 2 ∧ 2 ≤ tgetD wCal.dev.tbm.margin 2 0 ∧
    tgetD wCal.dev.tbm.calDue 2 0 - 1 + 64 ≤ wCal.dev.beat :=
  ⟨ready_ok (by decide +kernel), by decide, by decide +kernel, hears_ok (by decide +kernel), hears_ok (by decide +kernel),
   hears_ok (by decide +kernel), by decide +kernel⟩

/-! Witnesses: host accesses and batches. -/

/-- The open batch holds a write of the lead's word; the batches are full; and the device follows. -/
def wOpen : State := mk { base with batch := { base.batch with open_ := [.word (Reg.key .BEAT_SCHED []) 5] } }
def wStored (n : Nat) : State := mk { base with batch := { base.batch with sealed := [⟨1, 9, List.replicate n (.word 4 5)⟩] } }
def wFollow : State := mk { base with pair := { base.pair with state := .standby } }

theorem storeFull (n : Nat) : (wStored n).dev.storeSize = n := by
  show 0 + (((List.replicate n (Entry.word 4 5)).map entrySize).sum + 0) = n
  simp [entrySize]

theorem witness_StagedWritesJoinTheOpenBatch :
    w0.Ready ∧ wOpen.Ready ∧ wFollow.Ready ∧ w0.dev.host.d3hot = false ∧
    (w0.dev.resolve (dwordOf 0x30010) = some (0x30010, .BEAT_SCHED, []) ∧ Reg.row .BEAT_SCHED = ⟨0x30010, [], 0, 0x1f, 0, 0, 0, 0, 4⟩) ∧
    (∀ a b v, Dev.writeActs a b .BEAT_SCHED [] v = b) ∧
    (let e := Entry.word 0x30010 (BitVec.ofNat 32 ((5#32).toNat &&& 0x1f))
     (∃ x ∈ wOpen.dev.batch.open_, entrySame e x = true) ∧ (¬ ∃ x ∈ w0.dev.batch.open_, entrySame e x = true) ∧
     w0.dev.storeSize < 16384 ∧ (¬ ∃ x ∈ (wStored 16384).dev.batch.open_, entrySame e x = true)) ∧ 16384 ≤ (wStored 16384).dev.storeSize ∧
    (w0.dev.clk.run = true ∧ w0.dev.pair.state = .solo) ∧ wFollow.dev.pair.state = .standby :=
  ⟨ready_ok (by decide +kernel), ready_ok (by decide +kernel), ready_ok (by decide +kernel), by decide, by decide +kernel,
   fun _ _ _ => rfl, by decide +kernel, (storeFull _).symm ▸ Nat.le_refl _, by decide⟩

theorem witness_DiscardEmptiesTheOpenBatch :
    wOpen.Ready ∧ wOpen.dev.host.d3hot = false ∧ dwordOf 0x30020 = Reg.key .BEAT_BATCH_CTL [] ∧ (5#32).toNat.testBit 2 = true :=
  ⟨ready_ok (by decide +kernel), by decide +kernel⟩

/-- The result of a seal with MODE 1 for beat `a` (R45). -/
def sealed (s : State) (mode : Bool) : SealResult :=
  let e := s.served
  let a := e.sealBeat mode
  let m := if s.dev.pair.state = .solo then 2 else 3
  let leads := s.dev.clk.run = true ∧ (s.dev.pair.state = .solo ∨ s.dev.pair.state = .active)
  if ¬ leads then .notReady else if s.dev.batch.ovf = true then .overflow
    else if e.valuesOk s.dev.batch.open_ a = false then .value else if e.latOk s.dev.batch.open_ a = false then .latDec
    else if a < s.dev.beat + m then .late else if s.dev.beat + 16777216 < a then .horizon
    else if 8 ≤ s.dev.batch.sealed.length then .full else .accepted

/-- The four banks on, so that the settings meet R391. -/
def wSeal : State := mk ((List.range 4).foldl (fun d i => d.wr .PWR_DOM_CTL_LOFT [i] 0x80000000) base)

theorem witness_SealTakesOrRefusesTheBatch :
    wSeal.Ready ∧ wSeal.dev.host.d3hot = false ∧ sealed wSeal false = .accepted ∧ wFollow.Ready ∧ sealed wFollow false = .notReady :=
  ⟨ready_ok (by decide +kernel), by decide, by decide +kernel, ready_ok (by decide +kernel), by decide +kernel⟩

/-- Every unoccupied offset of a test: GLB space above GLB_ID's words. -/
def hole : Nat := 0x7FFFFC

theorem witness_HostWritesStoreTheFieldsTheyReach :
    w0.Ready ∧ w0.dev.host.d3hot = false ∧ w0.dev.resolve (dwordOf 0x30018) = some (0x30018, .BEAT_APPLY_LO, []) ∧ ¬ pmcKey 0x30018 ∧
    (∀ a b v, Dev.writeActs a b .BEAT_APPLY_LO [] v = b) ∧ Reg.row .BEAT_APPLY_LO = ⟨0x30018, [], 0xffffffff, 0, 0, 0, 0, 0, 0⟩ ∧
    w0.dev.resolve (dwordOf 0x440004) = some (0x440004, .WHP_CFG, []) ∧ (∀ a b v, Dev.writeActs a b .WHP_CFG [] v = b) ∧
    w0.dev.resolve (dwordOf 0x470010) = some (0x470010, .HST_ACC_ERR, []) ∧ bit (0x80000000#32).toNat 31 = true ∧
    bit (tgetD w0.dev.set1c 0x470010 0) 31 = false ∧ 7 ≠ 15 ∧ w0.dev.resolve (dwordOf hole) = none ∧ w0.dev.hears 152 :=
  ⟨ready_ok (by decide +kernel), by decide, by decide +kernel, by unfold pmcKey; decide, fun _ _ _ => rfl, by decide,
   by decide +kernel, fun _ _ _ => rfl, by decide +kernel, by decide +kernel, by decide +kernel, by decide, by decide +kernel,
   hears_ok (by decide +kernel)⟩

/-- The HI word of BEAT_COUNT is latched. -/
def wLatch : State := mk { base with host := { base.host with latch := [(Reg.key .BEAT_COUNT_HI [], 3)] } }

theorem witness_HostReadsReturnAndClear :
    w0.Ready ∧ w0.dev.host.d3hot = false ∧ wLatch.Ready ∧ w0.dev.hears 152 ∧ (let e := w0.asked
      e.resolve (dwordOf 0x304010) = some (0x304010, .LOFT_QDROP, [0]) ∧ ¬ (0x450000 ≤ 0x304010 ∧ 0x304010 < 0x452800) ∧
      (Reg.row .LOFT_QDROP).rc ≠ 0 ∧ hiWord .LOFT_QDROP [0] = none ∧ tget e.host.latch 0x304010 = none ∧
      e.resolve (dwordOf 0x30008) = some (0x30008, .BEAT_COUNT_LO, []) ∧ (Reg.row .BEAT_COUNT_LO).rc = 0 ∧
      hiWord .BEAT_COUNT_LO [] = some (.BEAT_COUNT_HI, []) ∧ tget e.host.latch 0x30008 = none ∧
      e.resolve (dwordOf hole) = none) ∧ (let e := wLatch.asked
      e.resolve (dwordOf 0x3000c) = some (0x3000c, .BEAT_COUNT_HI, []) ∧ (Reg.row .BEAT_COUNT_HI).rc = 0 ∧
      hiWord .BEAT_COUNT_HI [] = none ∧ tget e.host.latch 0x3000c = some 3) :=
  ⟨ready_ok (by decide +kernel), by decide, ready_ok (by decide +kernel), hears_ok (by decide +kernel), by decide +kernel⟩

/-! Witnesses: faults, interrupts and PCI Express. -/

/-- The condition of F057 holds. -/
def wCond : State := mk { base with pst := { base.pst with src := [(57, { SrcDyn.init with cond := true })] } }

theorem witness_PendIsClearedButNotWhileHeld :
    w0.Ready ∧ w0.dev.host.d3hot = false ∧ 189 < 190 ∧
    ¬ ((srcCond 2 = true ∧ (w0.dev.src 2).cond = true) ∨ bit (tgetD w0.dev.set1c (Reg.key .PST_SRC_STAT [2]) 0) 31 = true) ∧
    wCond.Ready ∧ (srcCond 57 = true ∧ (wCond.dev.src 57).cond = true) :=
  ⟨ready_ok (by decide +kernel), by decide +kernel, by decide, by decide +kernel, ready_ok (by decide +kernel), by decide +kernel⟩

theorem witness_FaultsAreInjectedAndReported :
    w0.Ready ∧ w0.dev.host.d3hot = false ∧ (tgetD w0.dev.set1c (Reg.key .PST_ALERT) 0 ≠ 1 ∧ w0.dev.pst.fatal = false) ∧
    (srcReserved 2 = false ∧ srcCond 2 = false ∧ w0.dev.hears 2 ∧ srcSeverity 2 0 ≠ 2 ∧ srcSeverity 5 0 = 2) ∧
    srcReserved 255 = true ∧ 255 < 256 ∧ (srcCond 57 = true ∧ 57 ≠ 186 ∧ srcFatal 57 = false ∧ (w0.dev.src 57).cond = false) ∧
    wCond.Ready ∧ (wCond.dev.src 57).cond = true :=
  ⟨ready_ok (by decide +kernel), by decide, by decide +kernel,
   ⟨by decide, by decide, hears_ok (by decide +kernel), by decide, by decide⟩, by decide, by decide, by decide +kernel,
   ready_ok (by decide +kernel), by decide +kernel⟩

/-- At a boundary, BLOCK reactions of an earlier CCLK wait for a Dray's client SerDes, its line SerDes, a locked Ridge lane and
the PCIe core; a window of source 2 ends in this beat. -/
def wBlock : State := mk { base with
  pst := { base.pst with
    blockReq := [(48, 6599), (55, 6599), (149, 6599), (150, 6599)], src := [(2, { SrcDyn.init with open_ := true, winStart := 5, winCnt := 3 })] }
  clk := { base.clk with count := 5 + 1024, cclk := 0 }
  ridge := { base.ridge with lanes := [(15, { Lane.init with state := .locked })] } }

theorem witness_BlocksAreResetAndWindowsClose :
    wBlock.Ready ∧ (wBlock.dev.clk.cclk = 0 ∧ wBlock.dev.pst.chipReq = none ∧
      ∀ n ∈ [48 + 0, 52 + 3, 134 + 15, 150], ∃ e ∈ wBlock.dev.pst.blockReq, e.1 = n ∧ e.2 < wBlock.dev.clk.ticks) ∧
    (wBlock.dev.lane 15).state = .locked ∧ wBlock.dev.hears 149 ∧ (∀ e ∈ wBlock.dev.pst.blockReq, e.1 ≠ 134) ∧
    ((wBlock.dev.src 2).open_ = true ∧ (wBlock.dev.src 2).winStart + wBlock.dev.fld .PST_SRC_WIN [2] 19 0 ≤ wBlock.dev.beat) ∧
    (wBlock.dev.src 3).open_ = false :=
  ⟨ready_ok (by decide +kernel), by decide +kernel, by decide +kernel, hears_ok (by decide +kernel), by decide +kernel⟩

/-- MSI-X is on; vector 1 is pending behind its mask bit. -/
def wMsix : State :=
  let d := (base.wr .BEAT_INT_STAT [] 1).wr .BEAT_INT_EN [] 1
  mk { d with host := { d.host with bme := true, msixEn := true, pend := 2 } }

theorem witness_UnmaskedVectorsSend :
    wMsix.Ready ∧ wMsix.dev.host.d3hot = false ∧ 1 < 64 ∧ 1 < 52 ∧ wMsix.dev.host.bme = true ∧ wMsix.dev.host.msixEn = true ∧
    wMsix.dev.host.funcMask = false ∧ bit wMsix.dev.host.pend 1 = true :=
  ⟨ready_ok (by decide +kernel), by decide +kernel⟩

def wD3 : State := mk { base with host := { base.host with d3hot := true } }

theorem witness_PcieFunctionComesAndGoes :
    w0.Ready ∧ w0.dev.boot.clockEnd = true ∧ wClock.Ready ∧ wClock.dev.boot.clockEnd = false ∧ wD3.Ready ∧ wD3.dev.host.d3hot = true :=
  ⟨ready_ok (by decide +kernel), by decide, ready_ok (by decide +kernel), by decide, ready_ok (by decide +kernel), by decide⟩

/-! Witnesses: the Whip, counters and time. -/

/-- All triggers enabled, WHP_BEAT at beat 5, time base 0 past the armed target; in a pair state. -/
def wWhip (p : PairState) : State :=
  let d := ((base.wr .WHP_CFG [] 31).wr .WHP_BEAT_LO [] 5).wr .WHP_TM_CFG [] 0x80000000
  mk { d with pair := { d.pair with state := p } }

theorem witness_WhipsAreRaisedAndFall :
    (∀ p ∈ [PairState.solo, .fenced, .active], (wWhip p).Ready ∧ (let s := wWhip p
      s.dev.host.d3hot = false ∧ s.dev.flag .WHP_CFG [] 0 = true ∧ 50 ≤ 50 ∧ 49 < 50 ∧
      (s.dev.pair.state ≠ .standby ∧ s.dev.pair.state ≠ .syncing ∧ s.dev.clk.run = true) ∧ s.dev.flag .WHP_CFG [] 3 = true ∧
      s.dev.flag .WHP_TM_CFG [] 31 = true ∧
      s.dev.whipTarget ≤ tbValue (s.dev.tb (s.dev.fld .WHP_TM_CFG [] 29 28)) s.dev.now ∧ s.dev.flag .WHP_CFG [] 4 = true ∧
      s.dev.beat = s.dev.rd .WHP_BEAT_LO + s.dev.rd .WHP_BEAT_HI * 2 ^ 32 ∧ s.dev.whip.due = [] ∧ 600 ≤ (s.at 600).clk.cclk)) ∧
    (wWhip .standby).Ready ∧ (wWhip .syncing).Ready ∧ (wWhip .standby).dev.pair.state = .standby :=
  ⟨fun p hp => ⟨ready_ok (by revert p; decide +kernel), by revert p; decide +kernel⟩, ready_ok (by decide +kernel),
   ready_ok (by decide +kernel), by decide⟩

/-- A Whip is due at the next boundary, with a record held or not. -/
def wLatched (held : Bool) : State :=
  let d := if held then (base.wr .WHP_CFG [] 0x80000000).wr .WHP_STAT [] 0x80000000 else base
  mk { d with whip := { d.whip with due := [⟨6, 5, 2, 0xFFFF⟩] } }

theorem witness_WhipsAreRaisedAndFall_latch : ∀ held,
    (wLatched held).Ready ∧ (wLatched held).Beats ∧ (∃ w ∈ (wLatched held).dev.whip.due, w.due = (wLatched held).next) ∧
    ((wLatched held).dev.flag .WHP_CFG [] 31 = true ∧ (wLatched held).dev.flag .WHP_STAT [] 31 = true ↔ held = true) := by
  intro held
  cases held <;> exact ⟨ready_ok (by decide +kernel), beats_ok (by decide +kernel), by decide +kernel, by decide +kernel⟩

/-- Counter 0 of block 15 counts, one short of its wrap. -/
def wPmc : State :=
  mk (((base.wr .PMC_CNT_CFG [15, 0] 0x80000000).wr .PMC_CNT_LO [15, 0] 0xFFFFFFFF).wr .PMC_CNT_HI [15, 0] 0xFFFF)

theorem witness_CountersWrapAndAreWritten :
    wPmc.Ready ∧ 15 < 20 ∧ 0 < 8 ∧ wPmc.dev.pmcLive 15 0 = true ∧ 2 ^ 48 ≤ wPmc.dev.pmcVal 15 0 + 1 ∧
    wPmc.dev.hears (166 + 15) ∧ 255 < 256 ∧ wPmc.dev.pmcLive 15 1 = false ∧ wPmc.dev.flag .PMC_CNT_CFG [15, 1] 31 = false ∧ wPmc.dev.host.d3hot = false :=
  ⟨ready_ok (by decide +kernel), by decide, by decide, by decide +kernel, by decide +kernel, hears_ok (by decide +kernel),
   by decide, by decide +kernel, by decide +kernel, by decide⟩

/-- PPS input 0 takes rising edges; output 0 of time base 0 is about to rise; output 1 is to fall. -/
def wTime : State :=
  let d := (base.wr .TIM_PPSI_CFG [0] 0x80000000).wr .TIM_PPSO_CFG [0] 0x800186A0
  mk { d with time := { d.time with
    tb := [(0, { TimeBase.init with val := secUnits - 1, asOf := 6600, en := true, state := .track })]
    pout := [(1, ⟨true, none, 5, 6600, 0⟩)] } }

def wTimeStandby : State := mk { wTime.dev with pair := { wTime.dev.pair with state := .standby } }

def wSnap : State := mk { base with time := { base.time with snapReq := true } }

theorem witness_TimeIsCapturedAndPulsed :
    wSnap.Ready ∧ wSnap.Beats ∧ wSnap.dev.time.snapReq = true ∧
    wTime.Ready ∧ wTime.dev.host.d3hot = false ∧ 0 < 4 ∧
    (wTime.dev.flag .TIM_PPSI_CFG [0] 31 = true ∧ wTime.dev.flag .TIM_PPSI_CFG [0] 30 = false ∧ 100 ≤ 100 ∧
      wTime.dev.pair.state ≠ .standby ∧ wTime.dev.pair.state ≠ .syncing) ∧
    (wTimeStandby.Ready ∧ wTimeStandby.dev.flag .TIM_PPSI_CFG [0] 31 = true ∧ wTimeStandby.dev.flag .TIM_PPSI_CFG [0] 30 = false ∧
      ¬ (wTimeStandby.dev.pair.state ≠ .standby ∧ wTimeStandby.dev.pair.state ≠ .syncing)) ∧ ¬ 100 ≤ 99 ∧ (let e := wTime.at 600
      e.ppsSecond 0 = some 1 ∧ wTime.dev.flag .TIM_PPSO_CFG [0] 31 = true ∧ wTime.dev.clk.run = true ∧ e.outputsOff = false ∧
      (wTime.dev.tb (wTime.dev.ppsoTb 0)).en = true ∧ e.squelched 0 = false ∧ (wTime.dev.ppsOut 0).lastSec = none) ∧
    (wTime.dev.ppsOut 1).level = true ∧ (wTime.dev.ppsOut 1).left < (wTime.at 600).ppsRun 1 ((wTime.at 600).now + 1) :=
  ⟨ready_ok (by decide +kernel), beats_ok (by decide +kernel), by decide, ready_ok (by decide +kernel), by decide, by decide, by decide +kernel, ⟨ready_ok (by decide +kernel), by decide +kernel⟩,
   by decide, by decide +kernel⟩

/-! Witnesses: the vault. -/

/-- Window 0 holds a KW_GO of a kind, well formed or not. -/
def window (w0 : Nat) : Tab Word := [(0, BitVec.ofNat 32 w0), (1, 3#32)]
def wWin (h : Nat) : State := mk { base with vault := { base.vault with win := window h } }
def wBusy : State := mk { base with vault := { base.vault with kwStat := [(0, 1)] } }

/-- The engine has failed. -/
def wWinOff : State := mk { (wWin 0x10000000).dev with vault := { (wWin 0x10000000).dev.vault with engOk := false } }

theorem witness_KeyWindowsTakeWordsAndJobs :
    (∀ h ∈ [0, 0x10000000, 0x20000000, 0x30000000], (wWin h).Ready ∧ (let s := wWin h
      s.dev.host.d3hot = false ∧ s.dev.kwStat 0 ≠ 1 ∧ s.dev.kwNotReady = false ∧ s.dev.kwBad 0 = decide (h = 0) ∧
      bits (s.dev.kwWord 0 0) 31 28 = h / 2 ^ 28 ∧ s.dev.vault.engOk = true ∧ s.dev.storeSize + 16 ≤ 16384)) ∧
    (248 % 2 ^ 16 / 4 = 64 * 0 + 62 ∧ 62 < 63 ∧ 252 % 2 ^ 16 / 4 = 64 * 0 + 63) ∧ wBusy.Ready ∧ wBusy.dev.kwStat 0 = 1 ∧
    wWinOff.Ready ∧ (wWinOff.dev.kwNotReady = false ∧ wWinOff.dev.kwBad 0 = false ∧ bits (wWinOff.dev.kwWord 0 0) 31 28 ≠ 3 ∧
      wWinOff.dev.vault.engOk = false) ∧
    wFollow.Ready ∧ wFollow.dev.kwNotReady = true ∧ 7 ≠ 15 ∧ 255 < 256 :=
  ⟨fun h m => ⟨ready_ok (by revert h; decide +kernel), by revert h; decide +kernel⟩, by decide, ready_ok (by decide +kernel),
   by decide +kernel, ready_ok (by decide +kernel), by decide +kernel, ready_ok (by decide +kernel), by decide +kernel⟩

/-- A KIND 2 job of window 0 for a CK index, with a blob that unwraps under key 5 to index 3. -/
def job (target : Nat) (blob : Bytes) : KwJob := ⟨0, 2, 4, target, blob⟩
def blob : Bytes := bytesOfNat 16 0xa47dfc773d58ead1fb55c4cf54430456
def wJob (started : Bool) (j : KwJob) (kek : Tab Kek) : State := mk { base with vault := { base.vault with
  jobs := [if started then ⟨.window j, true, 5, 0, 1, 0⟩ else ⟨.window j, false, 0, 0, 0, 0⟩], kek := kek } }
def wKcv : State := mk { base with vault := { base.vault with
  jobs := [⟨.checkValue 4, true, 0, 0, 1, 0⟩], kek := [(4, ⟨5, 2, false⟩)], pk := some (3, 4) } }
/-- A check value to be worked out; a commit's job with its last block to end at CCLK 1,024; an engine that failed; a beat with
no block start left; and a window's job that ends in a device that follows. -/
def wKcvNew : State := mk { base with vault := { base.vault with jobs := [⟨.checkValue 4, false, 0, 0, 0, 0⟩] } }
def wCkJob : State := mk { base with vault := { base.vault with jobs := [⟨.ckCommit, true, 0, 0, 4, 0⟩] } }
def wEngOff : State := mk { base with vault := { base.vault with engOk := false } }
def wNoBlock : State := mk { base with clk := { base.clk with cclk := 769 } }
def wJobFollow : State := mk { (wJob true (job 3 blob) []).dev with pair := { base.pair with state := .standby } }

theorem witness_KeyJobsUseAKekAndUnwrap :
    (∀ kek ∈ [[], [(4, ⟨5, 2, false⟩)], [(4, ⟨5, 0, false⟩)]], (wJob false (job 3 blob) kek).Ready ∧
      (let s := wJob false (job 3 blob) kek
       s.dev.vault.engOk = true ∧ s.dev.engineHeld = false ∧ s.dev.blockStart = some 768 ∧
       s.dev.vault.jobs = [⟨.window (job 3 blob), false, 0, 0, 0, 0⟩] ∧ tget s.dev.vault.kek 4 = tget kek 4)) ∧
    wKcvNew.Ready ∧ (wKcvNew.dev.engineHeld = false ∧ wKcvNew.dev.blockStart = some 768 ∧ wKcvNew.dev.vault.engOk = true ∧
      wKcvNew.dev.vault.jobs = [⟨.checkValue 4, false, 0, 0, 0, 0⟩]) ∧
    wEngOff.Ready ∧ wEngOff.dev.vault.engOk = false ∧ wDerive.Ready ∧ wDerive.dev.engineHeld = true ∧ wNoBlock.Ready ∧
    wNoBlock.dev.blockStart = none ∧
    (∀ j ∈ [job 3 blob, job 4 blob, job 3 (List.replicate 16 0#8)], (wJob true j []).Ready ∧
      (let s := wJob true j []
       s.dev.vault.jobs = [⟨.window j, true, 5, 0, 1, 0⟩] ∧ s.dev.jobEnds ⟨.window j, true, 5, 0, 1, 0⟩ = some 256 ∧
       s.dev.kwNotReady = false ∧ s.dev.storeSize + 16 ≤ 16384)) ∧
    ((unwrapKw 5 (List.replicate 16 0#8)).1 ≠ 0xA6A6A6A6A6A6A6A6#64 ∧ (unwrapKw 5 blob).1 = 0xA6A6A6A6A6A6A6A6#64) ∧
    (let p := (unwrapKw 5 blob).2
     natOfBytes ((p.drop 2).take 2) = 2 ∧ natOfBytes (p.take 2) = 3 % 2 ^ 16 ∧ natOfBytes (p.take 2) ≠ 4 % 2 ^ 16 ∧
     natOfBytes ((p.drop 4).take 4) = 0) ∧
    wJobFollow.Ready ∧ (wJobFollow.dev.vault.jobs = [⟨.window (job 3 blob), true, 5, 0, 1, 0⟩] ∧ wJobFollow.dev.kwNotReady = true ∧
      wJobFollow.dev.jobEnds ⟨.window (job 3 blob), true, 5, 0, 1, 0⟩ = some 256) ∧
    wCkJob.Ready ∧ (wCkJob.dev.vault.jobs = [⟨.ckCommit, true, 0, 0, 4, 0⟩] ∧
      wCkJob.dev.jobEnds ⟨.ckCommit, true, 0, 0, 4, 0⟩ = some 1024) ∧
    w0.Ready ∧ (∀ j ∈ w0.dev.vault.jobs.head?, w0.dev.jobEnds j = none) ∧
    wKcv.Ready ∧ (wKcv.dev.vault.jobs = [⟨.checkValue 4, true, 0, 0, 1, 0⟩] ∧
      wKcv.dev.jobEnds ⟨.checkValue 4, true, 0, 0, 1, 0⟩ = some 256) ∧ tget wKcv.dev.vault.kek 4 = some ⟨5, 2, false⟩ ∧
    wKcv.dev.vault.pk = some (3, 4) :=
  ⟨fun k m => ⟨ready_ok (by revert k; decide +kernel), by revert k; decide +kernel⟩, ready_ok (by decide +kernel), by decide +kernel,
   ready_ok (by decide +kernel), by decide, ready_ok (by decide +kernel), by decide, ready_ok (by decide +kernel), by decide,
   fun j m => ⟨ready_ok (by revert j; decide +kernel), by revert j; decide +kernel⟩, by decide +kernel, by decide +kernel,
   ready_ok (by decide +kernel), by decide +kernel, ready_ok (by decide +kernel), by decide +kernel, ready_ok (by decide +kernel),
   by decide, ready_ok (by decide +kernel), by decide +kernel⟩

/-- An agreement of slot 4 with the point G, and private key 1; the same with no point; and an attestation. -/
def pkIn (x y : Nat) : Dev :=
  (List.range 12).foldl (fun d i =>
    (d.wr .VLT_PK_IN [i] (x / 2 ^ (32 * (11 - i)) % 2 ^ 32)).wr .VLT_PK_IN [12 + i] (y / 2 ^ (32 * (11 - i)) % 2 ^ 32)) base
def wPk (d : Dev) (op : Nat × Nat) : State := mk { d with vault := { d.vault with pk := some op, ident := 1 } }

/-- The unit works while a reset is asked for. -/
def wPkReset : State := mk { base with vault := { base.vault with pk := some (1, 4), resetReq := true } }

theorem witness_PublicKeyUnitAgreesAndSigns :
    w0.Ready ∧ (w0.dev.host.d3hot = false ∧ 4 < 16 ∧ w0.dev.vault.pk = none ∧ w0.dev.vault.resetReq = false ∧
      w0.dev.vault.engOk = true ∧ w0.dev.kekBusy 4 = false) ∧
    (wJob false (job 3 blob) []).Ready ∧ (let s := wJob false (job 3 blob) []
     s.dev.vault.pk = none ∧ s.dev.vault.resetReq = false ∧ s.dev.vault.engOk = true ∧ s.dev.kekBusy 4 = true) ∧
    wPkReset.Ready ∧ wPkReset.dev.vault.pk ≠ none ∧ wPkReset.dev.vault.resetReq = true ∧
    (wPk (pkIn ecG.1 ecG.2) (1, 4)).Ready ∧ (let s := wPk (pkIn ecG.1 ecG.2) (1, 4)
      let x := natOfBytes (s.dev.wordsBytes .VLT_PK_IN 0 12)
      let y := natOfBytes (s.dev.wordsBytes .VLT_PK_IN 12 12)
      s.dev.vault.pk = some (1, 4) ∧ s.dev.vault.resetReq = false ∧ ecValid x y = true ∧
      ecMul s.dev.vault.ident.toNat (some (x, y)) = some (ecG.1, ecG.2)) ∧
    (wPk base (1, 4)).Ready ∧ (let s := wPk base (1, 4)
      ecValid (natOfBytes (s.dev.wordsBytes .VLT_PK_IN 0 12)) (natOfBytes (s.dev.wordsBytes .VLT_PK_IN 12 12)) = false) ∧
    (wPk base (2, 4)).Ready ∧ (wPk base (2, 4)).dev.vault.pk = some (2, 4) ∧ (wPk base (2, 4)).dev.vault.resetReq = false :=
  ⟨ready_ok (by decide +kernel), by decide +kernel, ready_ok (by decide +kernel), by decide +kernel, ready_ok (by decide +kernel),
   by decide, by decide, ready_ok (by decide +kernel), by decide +kernel,
   ready_ok (by decide +kernel), by decide +kernel, ready_ok (by decide +kernel), by decide, by decide⟩

/-- A claim under way in VENDOR; and one while a reset is asked for. -/
def wLc (r : Bool) : State :=
  let d := base.wr .VLT_LC_CMD [1] 0x1000000
  mk { d with vault := { d.vault with lcRec := d.wordsBytes .VLT_LC_CMD 0 64, lcBusy := true, resetReq := r } }

theorem witness_LifeCycleMovesOrRefuses :
    (wLc true).Ready ∧ (wLc true).dev.vault.lcBusy = true ∧ (wLc true).dev.vault.resetReq = true ∧ (wLc false).Ready ∧
    (wLc false).dev.vault.lcBusy = true ∧ (wLc false).dev.vault.resetReq = false ∧ (wLc false).dev.hears 14 ∧ w0.Ready ∧
    w0.dev.vault.lcBusy = false ∧ (wLc false).dev.vault.lc = .vendor ∧
    natOfBytes (((wLc false).dev.vault.lcRec.drop 4).take 1) = 1 :=
  ⟨ready_ok (by decide +kernel), by decide, by decide, ready_ok (by decide +kernel), by decide, by decide,
   hears_ok (by decide +kernel), ready_ok (by decide +kernel), by decide, by decide, by decide +kernel⟩

/-- The Ridge is up both ways; and a partner whose key and nonce are in. -/
def wLink : State := mk { base with ridge := { base.ridge with linkUp := true, peerUp := true } }
def wLinkLate : State := mk { wLink.dev with vault := { base.vault with peerNonce := some 4 } }
def wLinkDrawn : State := mk { wLink.dev with vault := { base.vault with nonce := some 3 } }
def wAgree : State := mk { base with vault := { base.vault with
  ident := 1, nonce := some 3, peerNonce := some 4, peerPub := some (BitVec.ofNat 384 ecG.1, BitVec.ofNat 384 ecG.2) } }

theorem witness_PairLinkKeyIsAgreed :
    wLink.Ready ∧ (wLink.dev.vault.trngOk = true ∧ wLink.dev.vault.nonce = none ∧ wLink.dev.ridge.linkUp = true ∧
      wLink.dev.ridge.peerUp = true) ∧
    (∀ k ∈ [1, 2, 3, 4], field (keyMessage k 3 [7#8]) 0 1 = k) ∧ wLink.dev.takesChannels = false ∧ w0.Ready ∧ w0.dev.ridge.linkUp = false ∧
    w0.dev.vault.peerPub = none ∧ (wLink.dev.vault.peerNonce = none ∧ wLinkLate.Ready ∧ wLinkLate.dev.vault.peerNonce ≠ none ∧
      wLinkLate.dev.vault.nonce = none ∧ wLinkDrawn.Ready ∧ wLinkDrawn.dev.vault.nonce ≠ none ∧ wLinkDrawn.dev.ridge.linkUp = true) ∧
    wAgree.Ready ∧
    ∃ pub k, wAgree.dev.vault.peerPub = some pub ∧ wAgree.dev.linkKey pub = some k := by
  refine ⟨ready_ok (by decide +kernel), by decide, by decide +kernel, by decide, ready_ok (by decide +kernel), by decide, by decide,
    ⟨by decide, ready_ok (by decide +kernel), by decide, by decide, ready_ok (by decide +kernel), by decide, by decide⟩,
    ready_ok (by decide +kernel), (BitVec.ofNat 384 ecG.1, BitVec.ofNat 384 ecG.2), ?_⟩
  have h : (wAgree.dev.linkKey (BitVec.ofNat 384 ecG.1, BitVec.ofNat 384 ecG.2)).isSome = true := by decide +kernel
  obtain ⟨k, e⟩ := Option.isSome_iff_exists.mp h
  exact ⟨k, by decide +kernel, e⟩

/-! Witnesses: the Ridge and the pair. -/

/-- The header of lane 15 in beat 5, with its HCRC. -/
def laneHdr : Bytes :=
  let b : Bytes := [0xF1#8, 0#8] ++ bytesOfNat 4 5
  b ++ bytesOfNat 2 (crc16 b)

/-- A segment followed by its code is good. -/
theorem segOk_fcs (m : Bytes) (n : Nat) (h : m.length = n) : segOk n (m ++ fcsOf m) = some m := by
  subst h
  have l : (fcsOf m).length = 4 := by simp [fcsOf, fcsBytes, bytesOfNat]
  simp [segOk, l]

/-- The Ridge is powered, lane 15 in a state; and its control word. -/
def wLane (x : Lane) (ctl : Nat) : State :=
  let d := base.wr .RDG_LANE_CTL [15] ctl
  mk { d with power := { d.power with dom := [(0, ⟨.on, false, 0, false⟩), (4, ⟨.on, false, 0, false⟩), (21, ⟨.on, false, 0, false⟩)] }
              ridge := { d.ridge with lanes := [(15, x)], started := true }
              clk := { d.clk with ticks := 2400000 } }

/-- The marker, and the header of lane 15 after it or without it, as code groups. -/
def inMarker : List CodeGroup := markerOf false
def inHdr (marked : Bool) : List CodeGroup := (writeGroups (if marked then (readGroups false inMarker).2 else false) laneHdr).1

/-- What lane 15 of a state reads of a marker and a header. -/
def readAt (s : State) (mk h : List CodeGroup) : RxFrame :=
  ((({ s.dev with out := [] } : Dev).bufferMoves 15 0).readFrame 15 [] mk h [] []).2

/-- Fifteen lanes have brought their frame of beat 5, the first of them at a position, and lane 15 is to bring its own. -/
def wSet (p : Nat) : State :=
  let d := (wLane Lane.init 0).dev
  mk { d with ridge := { d.ridge with lanes := (List.range 16).map fun i => (i, { Lane.init with
    state := .locked, fill := 32, pos := if i = 0 then p else if i < 15 then 5007 else 2507, fresh := decide (i < 15), usable := true,
    beat := 5 }) } }

def locked15 (misses : Nat) : Lane := { Lane.init with state := .locked, fill := 32, pos := 2507, misses := misses }

theorem witness_LanesSearchHuntAndLock :
    (∀ x ∈ [Lane.init, { Lane.init with state := .search }, { Lane.init with state := .candidate, cands := [(7, 5, 0)] },
        locked15 0, locked15 3, { Lane.init with state := .hunt }, { Lane.init with state := .hunt, cands := [(7, 4, 0)] },
        { Lane.init with state := .hunt, cands := [(7, 4, 1)] }], (wLane x 0).Ready ∧
      (wLane x 0).dev.ridgeOn = true ∧ (wLane x 0).dev.prbsMode 15 = false ∧ (wLane x 0).dev.lane 15 = x ∧
      (wLane x 0).dev.hears (134 + 15) ∧ (wLane x 0).dev.flag .RDG_CFG [] 0 = true ∧ x.since + 12000 ≤ (wLane x 0).dev.clk.ticks ∧
      ((wLane x 0).dev.ridge.started = true ∧ (wLane x 0).dev.ridge.linkUp = false ∧ (wLane x 0).dev.ridge.absent = false ∧
        (wLane x 0).dev.ridge.quiet + 2400000 ≤ (wLane x 0).dev.clk.ticks) ∧
      ((wLane x 0).dev.lane 3).state ≠ .locked ∧
      (∀ m, (readAt (wLane x 0) (if m then inMarker else []) (inHdr m)).marker = m ∧
        frameFits (readAt (wLane x 0) (if m then inMarker else []) (inHdr m)) 15 = true ∧
        hdrBeat (readAt (wLane x 0) (if m then inMarker else []) (inHdr m)).hdr = 4 + 1) ∧
      (∀ m, (readAt (wLane x 0) (if m then inMarker else []) []).marker = m ∧
        frameFits (readAt (wLane x 0) (if m then inMarker else []) []) 15 = false)) ∧
    15 < 16 ∧ 2507 = 7 + 2500 ∧ (0 < (32 : Int) + 0 ∧ (32 : Int) + 0 < 64 ∧ ¬ (0 < (32 : Int) + -32) ∧ ¬ ((32 : Int) + 32 < 64)) ∧
    (∀ p ∈ [5071, 5072], (wSet p).Ready ∧ (wSet p).dev.ridgeOn = true ∧ (wSet p).dev.prbsMode 15 = false ∧
      (wSet p).dev.lane 15 = { locked15 0 with beat := 5, usable := true } ∧
      (∀ i, i < 16 → i ≠ 15 → ((wSet p).dev.lane i).state = .locked ∧ ((wSet p).dev.lane i).fresh = true ∧
        ((wSet p).dev.lane i).usable = true ∧ ((wSet p).dev.lane i).beat = 5) ∧ (wSet p).dev.ridge.linkUp = false ∧
      frameFits (readAt (wSet p) inMarker (inHdr true)) 15 = true ∧ hdrBeat (readAt (wSet p) inMarker (inHdr true)).hdr = 5) ∧
    (let p := fun a i => if i = 15 then 2507 + 2500 else ((wSet a).dev.lane i).pos
     (∀ i, i < 16 → ∀ i', i' < 16 → p 5071 i ≤ p 5071 i' + 64) ∧ p 5072 1 + 64 < p 5072 0 ∧
     ∀ i, i < 16 → ∀ i', i' < 16 → p 5072 i < p 5072 i' + 1250) ∧
    (segOk 2224 (List.replicate 2224 0#8 ++ fcsOf (List.replicate 2224 0#8))).isSome = true ∧
    (segOk 256 (List.replicate 256 0#8 ++ fcsOf (List.replicate 256 0#8))).isSome = true ∧
    w0.Ready ∧ (w0.dev.lane 15).state = .off := by
  refine ⟨fun x m => ⟨ready_ok (by revert x; decide +kernel), by revert x; unfold Dev.hears; decide +kernel⟩, by decide,
    by decide, by decide, fun p m => ⟨ready_ok (by revert p; decide +kernel), by revert p; decide +kernel⟩, by decide +kernel, ?_, ?_,
    ready_ok (by decide +kernel), by decide⟩ <;>
  rw [segOk_fcs _ _ List.length_replicate] <;> rfl

theorem witness_PrbsLanesCheckAndInject :
    (∀ x ∈ [{ Lane.init with prbsAgree := 255 }, { Lane.init with prbsLock := true },
        { Lane.init with prbsLock := true, prbsErrs := List.replicate 63 true }], (wLane x 8).Ready ∧
      prbsPoly ((wLane x 8).dev.prbsSel 15) = some (7, 6) ∧ (wLane x 8).dev.prbsMode 15 = true ∧
      (wLane x 8).dev.host.d3hot = false ∧ (wLane x 8).dev.lane 15 = x) ∧
    (((true :: List.replicate 63 true).take 1024).filter id).length = 64 ∧ (wLane Lane.init 0).Ready ∧
    prbsPoly ((wLane Lane.init 0).dev.prbsSel 15) = some (7, 6) ∧ (wLane Lane.init 0).dev.prbsMode 15 = false ∧
    (wLane Lane.init 0x38).Ready ∧ (wLane Lane.init 0x38).dev.prbsMode 15 = true ∧
    prbsPoly ((wLane Lane.init 0x38).dev.prbsSel 15) = none ∧ [true] ≠ [] :=
  ⟨fun x m => ⟨ready_ok (by revert x; decide +kernel), by revert x; decide +kernel⟩, by decide, ready_ok (by decide +kernel),
   by decide +kernel, by decide +kernel, ready_ok (by decide +kernel), by decide +kernel⟩

/-- A boundary record of beat 5 with no unit and no event. -/
def record : Bytes := bytesOfNat 8 5 ++ bytesOfNat 4 272 ++ List.replicate 260 0#8
def wPair (p : PairState) (phase : Nat) : State := mk { base with pair := { base.pair with state := p, phase := phase } }

/-- A shingle taken at boundary 5, the last of a pass or not; and a device that holds shingle 9 of boundary 5, which it alone changed. -/
def item (l : List Shingle) (total : Nat) : CopyItem := ⟨7, 5, 3, total, l⟩
def wStale : State := mk { base with pair := { base.pair with
  state := .syncing, phase := 2, changed := [(5, [(9, 1)])], taken := [(9, 5)] } }

theorem witness_PairMessagesAreTaken :
    (wPair .standby 0).Ready ∧ (wPair .standby 0).dev.pair.coast = false ∧
    (wPair .standby 0).dev.pair.recFrom ≤ 5 ∧ (wPair .standby 0).dev.hears 62 ∧
    (wPair .standby 0).dev.halt = false ∧ (wPair .standby 0).dev.storeSize < 16384 ∧ (wPair .standby 0).dev.batch.open_ = [] ∧
    (wPair .syncing 2).Ready ∧ ((wPair .syncing 2).dev.pair.phase = 2 ∧
      (∀ x ∈ [item [.floor 3] 4, item [.floor 3] 5], (wPair .syncing 2).dev.shingleParts x.at_ x.parts = some [.floor 3]) ∧
      (item [.floor 3] 4).ix + 1 = (item [.floor 3] 4).total ∧ (item [.floor 3] 5).ix + 1 ≠ (item [.floor 3] 5).total ∧
      (wPair .syncing 2).dev.shingleParts (item [.ck 3 none] 4).at_ (item [.ck 3 none] 4).parts = none) ∧
    (∀ b, (⟨5, [], b, [], !b⟩ : CopyMsg).lost = true ∨ (⟨5, [], b, [], !b⟩ : CopyMsg).tooLong = true) ∧
    wStale.Ready ∧ ((wStale.dev.pair.changed.find? fun e => e.1 == 5).map (·.2) = some [(9, 1)] ∧
      tget ([] : List (Nat × Word)) 9 ≠ tget [(9, (1 : Word))] 9 ∧ tget wStale.dev.pair.taken 9 = some 5) ∧ w0.Ready ∧ w0.dev.pair.state = .solo ∧
    w0.dev.pair.handed = false ∧
    (List.replicate 128 0#8).length = 128 ∧ [0#8].length ≠ 128 ∧ bit (field (List.replicate 128 0#8) 9 1) 3 = false ∧
    ∃ r, readRecord record = some r ∧ r.ovf = false ∧ r.beat ≤ (wPair .standby 0).dev.beat ∧ (wPair .standby 0).dev.beat ≤ r.beat + 1 := by
  refine ⟨ready_ok (by decide +kernel), by decide, by decide, hears_ok (by decide +kernel), by decide, by decide +kernel, by decide,
    ready_ok (by decide +kernel), by decide +kernel, by decide, ready_ok (by decide +kernel), by decide +kernel, ready_ok (by decide +kernel), by decide, by decide, List.length_replicate,
    by decide, by decide +kernel, ?_⟩
  have h : (readRecord record).any (fun r => !r.ovf && r.beat == 5) = true := by decide +kernel
  cases e : readRecord record with
  | none => rw [e] at h; cases h
  | some r =>
    rw [e] at h
    simp only [Option.any_some, Bool.and_eq_true, Bool.not_eq_true', beq_iff_eq] at h
    exact ⟨r, rfl, h.1, h.2 ▸ by decide, h.2 ▸ by decide⟩

/-! Witnesses: power, flash and debug. -/

/-- A domain in a state since beat 0, at beat 300, with its ON bit. -/
def wDom (x : Nat) (v : DomState) (again on : Bool) : State :=
  let d := if on then base.wr .PWR_DOM_CTL_SW [x - 5] 0x80000000 else base
  mk { d with clk := { d.clk with count := 300 }, power := { d.power with dom := d.power.dom ++ [(x, ⟨v, again, 0, false⟩)] } }
def wFence (f : Bool) : State := mk { base with pair := { base.pair with fence := f } }

/-- Outbound pipe 0 drains; coach 1, whose counter it holds, has sent. -/
def wDomCoach : State := mk (withCo (wDom 5 .draining false false).dev { CoachDyn.init with lo := 7 })

/-- A unit is under way, with more of it to hand over, or with none. -/
def wFenceTx (more : Bool) : State := under { unit with held := if more then 6000 else 64 } 6500

theorem witness_FenceForcesOutputsAndDomainsSwitch :
    (∀ f, (wFence f).Ready ∧ (wFence f).dev.pair.fence = f ∧ (wFence f).dev.hears 188) ∧ domSwitched 20 = true ∧
    (∀ on, (wDom 20 .powering false on).Ready ∧ ((wDom 20 .powering false on).dev.domain 20).state = .powering ∧
      ((wDom 20 .powering false on).dev.domain 20).since + domRamp 20 ≤ (wDom 20 .powering false on).dev.beat ∧
      (wDom 20 .powering false on).dev.domCmd 20 = on) ∧
    (∀ x ∈ [5, 12, 13, 20, 30], ∀ a, (wDom x .draining a false).Ready ∧ ((wDom x .draining a false).dev.domain x).state = .draining ∧
      (wDom x .draining a false).dev.drained 300 x = true ∧ ((wDom x .draining a false).dev.domain x).pendingOn = a) ∧
    w0.Ready ∧ (w0.dev.domain 20).state = .off ∧ (20 ≤ 20 ∧ 19 < 20) ∧ wDomCoach.Ready ∧ (wDomCoach.dev.drained 300 5 = true ∧
      (wDomCoach.dev.domain 5).pendingOn = false ∧ wDomCoach.dev.pnDray 1 = 0 ∧ tget wDomCoach.dev.coach.dyn 1 ≠ none ∧
      wDomCoach.dev.co 1 ≠ .init) ∧
    (∀ m, (wFenceTx m).Ready ∧ (wFenceTx m).dev.pair.fence = false ∧ (wFenceTx m).dev.hears 188 ∧
      (∃ x, tget ((wFenceTx m).at 600).loft.tx 32 = some x ∧ x.stomp = none ∧
        (handed (((wFenceTx m).at 600).rate 32) x.start ((wFenceTx m).at 600).now < x.pkt.held ↔ m = true))) := by
  refine ⟨fun f => ?_, by decide, fun on => ?_, fun x m a => ⟨ready_ok (by revert a; revert x; decide +kernel), by revert a; revert x; decide +kernel⟩,
    ready_ok (by decide +kernel), by decide, by decide, ready_ok (by decide +kernel), by decide +kernel, fun m => ?_⟩
  · cases f <;> exact ⟨ready_ok (by decide +kernel), by decide, hears_ok (by decide +kernel)⟩
  · cases on <;> exact ⟨ready_ok (by decide +kernel), by decide +kernel⟩
  · cases m <;> exact ⟨ready_ok (by decide +kernel), by decide, hears_ok (by decide +kernel), ⟨_, rfl, by decide +kernel⟩⟩

/-- A flash job under way, or an address for the next one. -/
def wFlash (j : Option FlJob) (addr : Nat) : State :=
  let d := base.wr .BOOT_FL_ADDR [] addr
  mk { d with boot := { d.boot with flJob := j } }
/-- A write of the device's own is under way. -/
def wOwn : State := mk { base with vault := { base.vault with ckBusy := true } }

theorem witness_FlashOperationsRunAndEnd :
    (∀ a ∈ [0, 0x800000, 0xFF0000], (wFlash none a).Ready ∧ (wFlash none a).dev.host.d3hot = false ∧ 256 < 512 ∧
      (wFlash none a).dev.boot.flJob = none ∧ (wFlash none a).dev.boot.flWait = none ∧ (wFlash none a).dev.ownWrite = false ∧
      (wFlash none a).dev.rd .BOOT_FL_ADDR = a ∧ imgBase (1 - (wFlash none a).dev.boot.slot) = 0x800000) ∧
    (∀ op ∈ [1, 2, 3, 4], (wFlash (some ⟨op, 0x800000, 1, [0x5A#8]⟩) 0).Ready ∧
      (wFlash (some ⟨op, 0x800000, 1, [0x5A#8]⟩) 0).dev.boot.flJob = some ⟨op, 0x800000, 1, [0x5A#8]⟩ ∧
      (wFlash (some ⟨op, 0x800000, 1, [0x5A#8]⟩) 0).dev.hears 16) ∧
    wOwn.Ready ∧ wOwn.dev.ownWrite = true :=
  ⟨fun a m => ⟨ready_ok (by revert a; decide +kernel), by revert a; decide +kernel⟩,
   fun o m => ⟨ready_ok (by revert o; decide +kernel), by revert o; unfold Dev.hears; decide +kernel⟩, ready_ok (by decide +kernel),
   by decide⟩

/-- The DMA registers name `n` lines of channel 2 from line `first` of a region; and a job at its last line. -/
def wDma (region first n : Nat) : State :=
  mk ((tables.wr .TBM_DMA_SRC [] (2 * 2 ^ 29 + region * 2 ^ 27 + first)).wr .TBM_DMA_CNT [] n)
def wDmaLast : State := mk { tables with tbm := { tables.tbm with dma := some ⟨4096, 2, 1, 7, 2⟩, dmaDone := 1 } }

theorem witness_DmaJobsRunAndErrorsAreArmed :
    (wDma 0 524287 1).Ready ∧ (let s := wDma 0 524287 1
      s.dev.host.d3hot = false ∧ s.dev.tbm.dma = none ∧ bits (s.dev.rd .TBM_DMA_SRC) 28 27 = 0 ∧ s.dev.fld .TBM_DMA_CNT [] 16 0 = 1 ∧
      s.dev.chEn 2 = true ∧ bits (s.dev.rd .TBM_DMA_SRC) 31 29 = 2 ∧ bits (s.dev.rd .TBM_DMA_SRC) 21 0 = 524287) ∧
    (wDma 0 524287 2).Ready ∧ (wDma 0 524287 2).dev.fld .TBM_DMA_CNT [] 16 0 = 2 ∧ (wDma 2 0 1).Ready ∧
    bits ((wDma 2 0 1).dev.rd .TBM_DMA_SRC) 28 27 = 2 ∧ 71 < 72 ∧ 72 < 128 ∧ wDmaLast.Ready ∧
    wDmaLast.dev.tbm.dma = some ⟨4096, 2, 1, 7, 2⟩ ∧ wDmaLast.dev.tbm.dmaDone + 1 = 2 ∧ 0 < wDmaLast.dev.lowLeft 2 ∧
    wDmaLast.dev.lineFlips 2 (524288 + 7 + wDmaLast.dev.tbm.dmaDone) = [] :=
  ⟨ready_ok (by decide +kernel), by decide +kernel, ready_ok (by decide +kernel), by decide +kernel, ready_ok (by decide +kernel),
   by decide +kernel, by decide, by decide, ready_ok (by decide +kernel), by decide +kernel⟩

theorem witness_SmbusReadsShowAndChangeNothing :
    w0.Ready ∧ w0.dev.boot.clockEnd = true ∧ wClock.Ready ∧ wClock.dev.boot.clockEnd = false :=
  ⟨ready_ok (by decide +kernel), by decide, ready_ok (by decide +kernel), by decide⟩

/-- In OWNER; and in VENDOR with the channels enabled. -/
def wOwner : State := mk { base with vault := { base.vault with lc := .owner } }
def wDebug : State := mk tables

theorem witness_DebugAccessFollowsTheLifeCycle :
    wOwner.Ready ∧ wOwner.dev.clk.cclk < 1199 ∧ wOwner.dev.vault.lc = .owner ∧ wClock.Ready ∧ wClock.dev.clk.cclk < 1199 ∧
    wClock.dev.boot.clockEnd = false ∧ wDebug.Ready ∧ wDebug.dev.clk.cclk < 1199 ∧
    (wDebug.dev.boot.clockEnd = true ∧ wDebug.dev.vault.lc ≠ .owner) ∧ wDebug.dev.hears 6 ∧
    (wDebug.dev.resolve (dwordOf 0x30010) = some (0x30010, .BEAT_SCHED, []) ∧ (Reg.row .BEAT_SCHED).rw = 0 ∧
      (Reg.row .BEAT_SCHED).w1c = 0 ∧ (Reg.row .BEAT_SCHED).rws ≠ 0 ∧ (Reg.row .BEAT_SCHED).rc = 0 ∧ hiWord .BEAT_SCHED [] = none ∧
      tget wDebug.dev.host.latch 0x30010 = none) ∧
    (∀ (a : Dev) n, Dev.wordEffect n a 0x30010 = a) ∧
    (wDebug.dev.chEn 7 = true ∧ 524288 + 65535 < 524288 + wDebug.dev.dataLines 7 ∧ 0 < wDebug.dev.lowLeft 7 ∧
      wDebug.dev.lineFlips 7 3 = [] ∧ 71 < 72) := by
  refine ⟨ready_ok (by decide +kernel), by decide, by decide, ready_ok (by decide +kernel), by decide, by decide, ready_ok (by decide +kernel),
    by decide +kernel, by decide +kernel, hears_ok (by decide +kernel), by decide +kernel, ?_, by decide +kernel⟩
  have h : regAt 0x30010 = some (.BEAT_SCHED, []) := by decide +kernel
  intro a n
  simp only [Dev.wordEffect, h]

/-! Well-formedness: a term that each check refuses. -/

theorem test_illFormed : ∀ c ∈ [Instr.bootStageComplete 7 true 0, .bootStageComplete 0 true 0, .tbmChannelTraining 8 0 5,
    .tbmChannelTraining 0 0 256, .beatBoundary { BoundaryIn.quiet with phase := [(64, 0)] },
    .beatBoundary { BoundaryIn.quiet with phase := [(0, 4)] }, .beatBoundary { BoundaryIn.quiet with badDomains := [22] },
    .graceEnd 0, .timedAdvance 65536, .pnSoftLimit 0, .pnHardLimit 0, .supervisionExpiry 4, .arrivalAssignment 64 0 0 [1],
    .arrivalAssignment 0 1200 0 [1], .arrivalAssignment 0 0 4 [1], .arrivalAssignment 0 0 0 [], .portPhyChange 64 true ⟨true, 0, 0, []⟩ true,
    .linkTrainingDone 64, .outboundProcess 4 [], .outboundProcess 0 [(0, .corrected)], .inboundCipherStart 31 0,
    .inboundCipherStart 64 0, .inboundCipherStart 32 1200, .frameVerdict 31 0 false, .frameVerdict 32 1200 false, .probeExpiry 4,
    .superframeSend 32 0 none, .superframeSend 0 1200 none, .alignerPosition 32 0 0 0 false [], .alignerPosition 0 1200 0 0 false [],
    .alignerPosition 0 0 4 0 false [], .superframeReceive 32 0 false, .superframeReceive 0 1200 false, .superframeVerdict 32 0,
    .superframeVerdict 0 1200, .relayReencryptStart 4 0, .relayReencryptStart 0 1200, .loftPush 8 0, .loftPush 0 1200,
    .gapMarkerRemove 512 0, .gapMarkerRemove 0 1200, .transmissionStart 64 0, .transmissionStart 0 1200, .releaseDrop 64 0,
    .releaseDrop 0 1200, .unitTransmitComplete 64 0, .unitTransmitComplete 0 1200, .loftUnderrun 64 0, .loftUnderrun 0 1200,
    .migrationStep 4, .lineCheckFail 8 0 false, .lineCheckFail 0 (2 ^ 22) false, .calibrationRead 8 0, .calibrationRead 0 256,
    .calibrationAbandon 8], wellFormed c = false := by decide

theorem test_illFormed' : ∀ c ∈ [Instr.rwsWrite 2 0, .rwsWrite (2 ^ 24) 0, .registerWrite (.bar0 3) [0] [15], .registerWrite (.bar0 0) [0] [16],
    .registerWrite (.bar0 0) [0] [15, 15], .registerWrite (.bar0 0) [] [], .registerWrite (.cfg (.bar 6)) [0] [15],
    .clearingRead ⟨.bar0 1, [15]⟩, .clearingRead ⟨.bar2 (2 ^ 16), [15]⟩, .clearingRead ⟨.bar0 0, []⟩, .clearingRead ⟨.cfg (.cap 5), [15]⟩,
    .coherentLoRead ⟨.bar0 1, [15]⟩, .unoccupiedRead ⟨.bar0 1, [15]⟩, .smbOtherTransaction (some 14), .beatBoundary { BoundaryIn.quiet with straps := 4 }, .pendClear 190, .faultInject 256 0, .faultInject 0 4, .faultEvent 190 0 1 (.is true),
    .faultEvent 0 3 1 (.is true), .blockReset 190, .faultWindowClose 190, .msixUnmask 64, .whipInEdge 50 1200, .whipOutFall 1200,
    .pmcCounterWrap 20 0 1, .pmcCounterWrap 0 8 1, .pmcCounterWrite 20 0 false 0, .pmcCounterWrite 0 8 false 0,
    .ppsInputEdge 4 0 0 100 false, .ppsInputEdge 0 1200 0 100 false, .ppsInputEdge 0 0 4 100 false, .ppsOutputRise 4 0,
    .ppsOutputRise 0 1200, .ppsOutputFall 4 0, .ppsOutputFall 0 1200, .stageKeyDelivery 256, .ckDelivery 256, .ckErase 256,
    .keyWindowWrite 2 0 15, .keyWindowWrite (2 ^ 16) 0 15, .keyWindowWrite 0 0 16, .kekAgreement 16, .kekCheckValue 16,
    .ridgeFrameReceive 16 0 0 [] [] [] [] [], .ridgeCrcHuntStart 16, .ridgeHuntTimeout 16, .ridgeLaneTimeout 16, .prbsInject 16,
    .prbsChecker 16 [], .continuousInjection 16 1, .arbFenceRise ⟨1200, 20⟩, .domainRampDone 4, .domainDrainDone 22, .flashRead 0,
    .flashRead 257, .flashProgram 0, .flashProgram 257, .tbmErrorInject 8 0, .tbmErrorInject 0 72, .dbgReg 2 false 0,
    .dbgTbl 8 0 false none 0, .dbgTbl 0 (2 ^ 22) false none 0, .pcieLinkChange true 8 4 true true false,
    .pcieLinkChange true 4 3 true true false], wellFormed c = false := by decide

theorem test_wellFormed : ∀ c ∈ [Instr.bootStageComplete 6 true 0, .graceEnd 65535, .arrivalAssignment 63 1199 3 [1],
    .frameVerdict 63 1199 false, .registerWrite (.bar0 0xFFFFFC) [0] [15], .registerWrite (.bar2 0xFFFC) [0, 0] [15, 0],
    .clearingRead ⟨.cfg (.cap 4), [3]⟩, .arbFenceRise ⟨1199, 20⟩, .smbOtherTransaction (some 15), .smbOtherTransaction none, .domainRampDone 5, .domainDrainDone 33, .flashRead 256,
    .dbgTbl 7 5 true (some 71) 0, .pcieLinkChange true 4 4 true true false], wellFormed c = true := by decide

/-- No row of the table gives bits: a word spells no command, and nothing is put into the queue. -/
theorem test_no_word : decodeTableWord 32 0xFFFFFFFF = none ∧ (w0.withFetchWord 32 5) = w0 := ⟨rfl, rfl⟩

/-! Values that the manual works out. -/

/-- What a command leaves. -/
def leaves (s : State) (c : Instr) (p : Dev → Bool) : Bool :=
  match exec c s with
  | .next t => p t.dev
  | _ => false

/-- The nine ASCII bytes of the check values. -/
def nine : Bytes := [0x31#8, 0x32#8, 0x33#8, 0x34#8, 0x35#8, 0x36#8, 0x37#8, 0x38#8, 0x39#8]

/-- R161: the check value of the CRC-16. -/
theorem test_crc16 : crc16 nine = 0x29B1 := by decide +kernel

/-- The delimiter's CHK: the check value of the CRC-8, and R167's delimiter of 1,518 bytes in class 5. -/
theorem test_delimiter : crc8 nine = 0xF4 ∧ natOfBytes (delimiter 1518 5) = 0x17BA80F0 := by decide +kernel

/-- The two buckets of R308's example, and the entry of R310 in b0. -/
theorem test_buckets :
    let k := emKey 0 0x064 0x024E56003B07
    let g := emG 0x4D27A13C5E9 0x1F86B042D37 (k / 2 ^ 20)
    k = 0x0064024E56003B07 ∧ g = (0x2632A, 0x27443) ∧ (k % 2 ^ 20) ^^^ g.1 = 0x2582D ∧ (k % 2 ^ 20) ^^^ g.2 = 0x24F44 ∧
    emEntry (k / 2 ^ 20) 0 4117 = 0xC8049CAC01015 ∧ idChan 2 0x2582D = 5 ∧ idLine 0x2582D = 0x12C16 ∧ idChan 2 0x24F44 = 4 ∧
    idLine 0x24F44 = 0x127A2 := by decide +kernel

/-- R314's example: the line of 10.42.17.5 at /24, seed 0x6D3B19E4, LOG2 14, BASE 0x1000. -/
theorem test_data_line :
    let d := base.wr .CLS_BLOOM_SEED4 [] 0x6D3B19E4
    let id := d.dataId false (14 * 2 ^ 19 + 0x1000) 0x0A2A1100
    d.bloomIx false 0x0A2A1100 = (0x6FF5, 0x7B90) ∧ id = 2 ^ 20 + 77813 ∧ idChan 2 id = 5 ∧ idLine id = 524288 + 38906 := by
  decide +kernel

/-- The tweak input of R357's example, line 0x12C16 of channel 5. -/
theorem test_tweak : tweakIn 5 0x12C16 =
    [0x54#8, 0x42#8, 0x4D#8, 0x4C#8, 5#8, 0#8, 0#8, 0#8, 0#8, 1#8, 0x2C#8, 0x16#8, 0#8, 0#8, 0#8, 0#8] := by decide

/-- The SecTAG and IV of the worked frame of coach 4,117 (R121, R130). -/
theorem test_sectag :
    secTag 1 0 0x024E56002A111015 9 0x0000000280000013 1502 =
      [0x88#8, 0xE5#8, 0x2D#8, 0#8, 0x80#8, 0#8, 0#8, 0x13#8, 2#8, 0x4E#8, 0x56#8, 0#8, 0x2A#8, 0x11#8, 0x10#8, 0x15#8] ∧
    ivOf 1 0x0000000280000013 0x5A3C96E10F27B4D86C19E7A2#96 = 0x5A3C96E00F27B4DAEC19E7B1#96 := by decide

/-- The first bytes of the worked superframe (R160). -/
theorem test_superframe_header : hdrStart 1 0x40 0x1015 9 0x0000000100002A3B 0 =
    [0x7A#8, 0x3F#8, 0x5C#8, 0x91#8, 0xE4#8, 6#8, 0xB8#8, 0x2D#8, 1#8, 0x40#8, 0x10#8, 0x15#8, 0#8, 0#8, 0#8, 9#8, 0#8, 0#8, 0#8, 1#8,
     0#8, 0#8, 0x2A#8, 0x3B#8, 0#8, 0#8] := by decide

/-- The times of the worked frames: T_rx of 1,550 bytes at 800 Gbit/s is 19 CCLK, the length of 1,518 bytes 37 at 400
(R143, R418), and the cells of 1,518 bytes are 6 (R384). -/
theorem test_lengths : lineCclk 800 1550 = 19 ∧ lineCclk 400 1518 = 37 ∧ lineCclk 400 9216 = 222 ∧ cellsOf 1518 = 6 ∧
    overhead 1 = 32 := by decide

/-- The gate of R418's example: at CCLK 6,000,023,970 a TC0 unit of 1,518 bytes does not fit, at 6,000,025,200 it does. -/
theorem test_gate :
    let d := ((base.wr .DRY_GROUP [2] 2).wr .GATE_PORT_CFG [16] 0x80020000).wr .GATE_PORT_CYCLE [16] 12000
    let d := (d.wr .GCL_GATES [16384] 0x80).wr .GCL_INTERVAL [16384] 1200
    let d := (d.wr .GCL_GATES [16385] 0x7F).wr .GCL_INTERVAL [16385] 10800
    d.gatePos 16 6000023970 = 11970 ∧ d.gateAdmits 16 0 6000023970 1518 = false ∧ d.gateAdmits 16 0 6000025200 1518 = true ∧
    d.gateWindow 16 7 = some 1200 ∧ d.gateWindow 16 0 = some 10800 := by decide +kernel

/-- The worked host accesses: CO_ADV of coach 4,117 lies at 0x00840568, OUT_UNITS and OUT_CHOCKED of it at 0x00C40540 and
0x00C40560 (R641). -/
theorem test_apertures :
    let d := (base.wr .HST_APER_SEL [0] 3).wr .HST_APER_SEL [1] 4
    d.resolve 0x840568 = some (Reg.key .CO_ADV [4117], .CO_ADV, [4117]) ∧
    d.resolve 0xC40540 = some (Reg.key .CST_WIDE [4117, 0], .CST_WIDE, [4117, 0]) ∧
    (d.resolve 0xC40560).map (·.2.1) = some .CST_CNT ∧ base.resolve 0x840568 = none := by decide +kernel

/-- R617's example: PD09 goes OFF, and the next PN of coach 4,117 is 0x0000000280010000. -/
theorem test_pipe_off :
    let d := base.wr .CO_ROUTE [4117] 16
    let d := d.setCo 4117 { CoachDyn.init with hi := 0x28000, lo := 0x14, mirror := 0x28002 }
    let s := mk { d with clk := { d.clk with count := 6000003 }
                         power := { d.power with dom := d.power.dom ++ [(9, ⟨.draining, false, 6000000, false⟩)] } }
    leaves s (.domainDrainDone 9) (fun d => pnOf (d.co 4117) == 0x0000000280010000 && (d.domain 9).state == DomState.off) = true := by
  decide +kernel

/-- A derived coach whose timed advance falls due transmits the next stage with PN 1 (R214, R215). -/
theorem test_advance :
    leaves wDue (.timedAdvance 1) (fun d => (d.co 1).sw == SwState.txAhead && (d.co 1).stage == 3 && pnOf (d.co 1) == 1) = true := by
  decide +kernel

end Sys2Proof.Tests
end

section
/-! SUPPORT. Host writes (R13, R17, R638): the frame that O38 claims of a write with a byte enable clear, and the state in which a
write at the performance counters breaks it. -/

namespace Sys2Proof.Machine

/-- A superframe of AIS that began at CCLK 200 of beat 4 on a port of 100 Gbit/s. -/
def aisFrame : TxSf :=
  { start := [], key := 0, iv := 0, fdp := 0, ais := true, coach := 0, at_ := 2500000, off := 0, out := [] }

/-- CCLK 600 of beat 5: the last byte of that superframe, on line port 0, went out in CCLK 576, and no command has brought the port
up to date since. -/
def aisSent : State :=
  { dev := { Dev.afterReset .blank 0 0 with
      clk := { Clock.reset with count := 5, cclk := 600, ticks := 6600, run := true, pllLock := true, det := true }
      ports := { Ports.reset with thatch := [(0, { thatchInit with txOn := true, txSf := some aisFrame })] } }
    pending := [] }

theorem aisSent_ready : aisSent.Ready where
  awake := rfl
  settled :=
    { touch := rfl, event := rfl, cond := by decide +kernel, lost := by decide +kernel
      pend := fun v _ h => by simp [bit, show aisSent.dev.host.pend = 0 from rfl] at h }

/-- REGISTER_WRITE of one dword of BAR0 is one host write. -/
theorem exec_registerWrite_one (off be : Nat) (val : Word) (s : State) :
    exec (.registerWrite (.bar0 off) [val] [be]) s = onDev s fun d => d.hostWrite off val be := rfl

/-- A write with no byte enables, of PMC_CNT_CFG(0, 0), brings the port up to date. -/
theorem partialWrite_endsAisFrame {t : State} (h : exec (.registerWrite (.bar0 0x450020) [0] [0]) aisSent = .next t) :
    (t.dev.thatch 0).txSf = none := by
  rw [exec_registerWrite_one, onDev_awake aisSent_ready.awake, Host.Outcome.next.injEq] at h
  rw [← h]
  decide +kernel

/-- Refutes O38: the frame of its partial-write clause fails for offsets of the performance counters. A write there first brings
the superframes under way up to date (Dev.writeFirst), whatever its byte enables; in `aisSent` the superframe of AIS leaves its
port by that, where the clause lets no port change. -/
theorem not_hostWritesStoreTheFieldsTheyReach : ¬ Obligations.HostWritesStoreTheFieldsTheyReach := by
  unfold Obligations.HostWritesStoreTheFieldsTheyReach
  intro h
  obtain ⟨_, _, partialWrite, _⟩ := h aisSent 0x450020 0 aisSent_ready rfl
  obtain ⟨t, ht, _, _, _, _, keeps⟩ := partialWrite 0 (by decide)
  have same : aisSent.dev.ports = t.dev.ports := keeps.1 .ports (by decide)
  have gone := partialWrite_endsAisFrame ht
  rw [Dev.thatch, ← same] at gone
  exact absurd gone (by decide)

end Sys2Proof.Machine
end

section
/-! SUPPORT. Handing over superframes (R174, R176, R396): all that bringing the line ports up to date can change. -/

namespace Sys2Proof.Machine

/-- Words that handing over superframes changes: gaps, PTP messages, and the OUT_CHOCKED of the coaches that AIS names. -/
def packedKey (k : Nat) : Prop := k ∈ packKeys ∨ ∃ c, k = Reg.key .CST_CNT [c, 0]

theorem packedKey_gap {q : Nat} (h : 256 ≤ q) (h' : q < 512) : packedKey (Reg.key .LOFT_QGAP [q]) := by
  have e : q = 256 + (q - 256) := by omega
  rw [e]
  exact .inl (List.mem_append_left _ (List.mem_append_left _ (List.mem_map_of_mem (List.mem_range.2 (by omega)))))

theorem packedKey_ptp {p i : Nat} (hp : 32 ≤ p) (hp' : p < 64) (hi : i < 5) : packedKey (Reg.key .TIM_PTP_CNT [p, i]) := by
  have e : [p, i] = [32 + (5 * (p - 32) + i) / 5, (5 * (p - 32) + i) % 5] := by
    congr 1
    · omega
    · congr 1; omega
  rw [e]
  exact .inl (List.mem_append_left _ (List.mem_append_right _ (List.mem_map.2 ⟨_, List.mem_range.2 (by omega), rfl⟩)))

theorem packedKey_chocked (c : Nat) : packedKey (Reg.key .CST_CNT [c, 0]) := .inr ⟨c, rfl⟩

/-- The words that handing over changes lie in the Loft's counters, the time block's PTP counters and the coach statistics. -/
theorem packedKey_bounds {k : Nat} (h : packedKey k) :
    (0x304000 ≤ k ∧ k < 0x308000) ∨ (0x401000 ≤ k ∧ k < 0x401800) ∨ 0x40000000 ≤ k := by
  rcases h with h | ⟨c, rfl⟩
  · simp only [packKeys, List.mem_append, List.mem_map, List.mem_range] at h
    rcases h with (⟨q, hq, rfl⟩ | ⟨i, hi, rfl⟩) | ⟨c, _, rfl⟩ <;> simp [Reg.key, Reg.row] <;> omega
  · simp [Reg.key, Reg.row]; omega

/-- The Loft, the ports, the performance counters, the words of `packedKey` and the counts of the CCLK differ at most. -/
structure Dev.Packed (a b : Dev) : Prop where
  rest : a = { b with words := a.words, loft := a.loft, ports := a.ports, pmc := a.pmc, set1c := a.set1c, addRc := a.addRc }
  word : ∀ k, ¬ packedKey k → ¬ pmcKey k → wordAt b.words k = wordAt a.words k

theorem Dev.Packed.refl (a : Dev) : a.Packed a := ⟨rfl, fun _ _ _ => rfl⟩

theorem Dev.Packed.trans {a b c : Dev} (h : a.Packed b) (h' : b.Packed c) : a.Packed c := by
  refine ⟨?_, fun k hk hp => (h'.word k hk hp).trans (h.word k hk hp)⟩
  have e := h.rest
  rw [h'.rest] at e
  exact e

/-- Steps over the indices below n. -/
theorem Dev.Packed.each {n : Nat} {f : Dev → Nat → Dev} (hf : ∀ (d : Dev) i, i < n → d.Packed (f d i)) (d : Dev) :
    d.Packed (forEach n d f) := by
  have fold : ∀ (l : List Nat), (∀ i ∈ l, i < n) → ∀ d : Dev, d.Packed (l.foldl f d) := by
    intro l hl
    induction l with
    | nil => exact .refl
    | cons i r ih =>
      intro d
      exact (hf d i (hl i (List.mem_cons_self ..))).trans (ih (fun j hj => hl j (List.mem_cons_of_mem _ hj)) _)
  exact fold _ (fun i hi => List.mem_range.1 hi) d

theorem Dev.Packed.setLoft (d : Dev) (x : Loft) : d.Packed { d with loft := x } := ⟨rfl, fun _ _ _ => rfl⟩

theorem Dev.Packed.setThatch (d : Dev) (n : Nat) (x : ThatchDyn) : d.Packed (d.setThatch n x) := ⟨rfl, fun _ _ _ => rfl⟩

theorem Dev.Packed.setAddRc (d : Dev) (x : Tab (Nat × Nat)) : d.Packed { d with addRc := x } := ⟨rfl, fun _ _ _ => rfl⟩

theorem Dev.Packed.setQueue (d : Dev) (q : Nat) (l : List QEntry) : d.Packed (d.setQueue q l) := .setLoft d _

theorem Dev.Packed.count (d : Dev) {r : Reg} {ix : List Nat} (n : Nat) (h : packedKey (r.key ix)) : d.Packed (d.count r ix n) :=
  ⟨rfl, fun k hk hp => (d.count_keeps r ix n).2 k (fun e => hk (List.mem_singleton.1 e ▸ h)) hp⟩

theorem Dev.Packed.of_counted {a b : Dev} (h : a.Counted b) (q : a.Quiet b) : a.Packed b := by
  refine ⟨?_, fun _ _ hp => q.wordAt hp⟩
  obtain ⟨_, _, _, _, rfl⟩ := h
  rfl

/-- Counting an event over many CCLK changes words and what the counters keep. -/
theorem Dev.pmcSpread_counted (d : Dev) (b code n : Nat) (slot : Option Nat) : d.Counted (d.pmcSpread b code n slot) := by
  unfold Dev.pmcSpread
  generalize List.range 8 = l
  induction l generalizing d with
  | nil => exact .refl d
  | cons k r ih =>
    refine Dev.Counted.trans ?_ (ih _)
    dsimp only
    split
    · exact d.pmcAdd_counted b k n
    · exact .refl d

theorem Dev.Packed.pmcSpread (d : Dev) {b : Nat} (code n : Nat) (slot : Option Nat) (hb : b < 20) :
    d.Packed (d.pmcSpread b code n slot) :=
  .of_counted (d.pmcSpread_counted b code n slot) (d.pmcSpread_quiet code n slot hb)

theorem Dev.Packed.pmcEvent (d : Dev) {b : Nat} (code : Nat) (slot : Option Nat) (n : Nat) (hb : b < 20) :
    d.Packed (d.pmcEvent b code slot n) :=
  .of_counted (d.pmcEvent_counted b code slot n) (d.pmcEvent_quiet code slot n hb)

theorem Dev.gapHeads_packed {q : Nat} (h : 256 ≤ q) (h' : q < 512) (t : Nat) (l : List QEntry) (d : Dev) :
    d.Packed (Dev.gapHeads q t l d) := by
  induction l generalizing d with
  | nil => exact .refl d
  | cons e r ih =>
    cases e with
    | unit u => exact .refl d
    | gap due ing off ix n =>
      simp only [Dev.gapHeads]
      split
      · exact (((Dev.Packed.setQueue d q r).trans (.count _ n (packedKey_gap h h'))).trans
          (.pmcSpread _ 4 1 _ (by decide))).trans (ih _)
      · exact .refl d

/-- The queues of line port n are those of slot 32 + n. -/
theorem Dev.gapRemoves_packed {p : Nat} (hp : 32 ≤ p) (hp' : p < 64) (t : Nat) (d : Dev) :
    d.Packed (forEach 8 d fun d i => d.gapRemove (8 * p + i) t) :=
  .each (fun d i _ => Dev.gapHeads_packed (by omega) (by omega) t _ d) d

theorem Dev.putItem_packed (d : Dev) (n : Nat) (k : TxSf) (b : Bytes) (u : Option Pkt) : d.Packed (d.putItem n k b u) := by
  unfold Dev.putItem
  dsimp only
  split <;> exact .setThatch d n _

theorem Dev.ptpCorrect_packed (d : Dev) {p : Nat} (hp : 32 ≤ p) (hp' : p < 64) (pl : PtpPlan) (f : Bytes) :
    d.Packed (d.ptpCorrect p pl f).1 := by
  have ptp : ∀ (d : Dev) {i : Nat}, i < 5 → d.Packed (d.count .TIM_PTP_CNT [p, i]) := fun d _ hi =>
    .count d 1 (packedKey_ptp hp hp' hi)
  have ptpIf : ∀ (d : Dev) (b : Bool), d.Packed (if b then d.count .TIM_PTP_CNT [p, 4] else d) := fun d b => by
    cases b
    · exact .refl d
    · exact ptp d (by decide)
  unfold Dev.ptpCorrect
  split
  · exact .refl d
  · split
    · exact ptp d (by decide)
    · dsimp only
      split
      · exact .refl d
      · refine Dev.Packed.trans (Dev.Packed.trans ?_ (ptpIf _ _)) (.pmcEvent _ 1 _ 1 (by decide))
        split <;> exact ptp d (by decide)

theorem Dev.packPtp_packed (d : Dev) {p : Nat} (hp : 32 ≤ p) (hp' : p < 64) (tx r off : Nat) (u : Pkt) :
    d.Packed (d.packPtp p tx r off u).1 := by
  unfold Dev.packPtp
  split
  · exact .refl d
  · split
    · exact .refl d
    · exact d.ptpCorrect_packed hp hp' _ _

theorem Dev.packItem_packed (d : Dev) {n : Nat} (hn : n < 32) (k : TxSf) (t : Nat) : d.Packed (d.packItem n k t) := by
  unfold Dev.packItem
  extract_lets p r e
  have gaps : d.Packed e := Dev.gapRemoves_packed (by omega) (by omega) t d
  refine gaps.trans ?_
  split
  · exact e.putItem_packed n k _ none
  · dsimp only
    exact ((((Dev.Packed.setQueue e _ _).trans (.setLoft _ _)).trans (.pmcSpread _ 2 1 _ (by decide))).trans
      (Dev.packPtp_packed _ (by omega) (by omega) _ _ _ _)).trans (Dev.putItem_packed _ n k _ _)

theorem Dev.aisDrop_packed {p : Nat} (hp : 32 ≤ p) (hp' : p < 64) (c t m : Nat) (d : Dev) : d.Packed (d.aisDrop p c t m) := by
  induction m generalizing d with
  | zero => exact .refl d
  | succ m ih =>
    simp only [Dev.aisDrop]
    refine (Dev.gapRemoves_packed hp hp' t d).trans ?_
    split
    · exact .refl _
    · exact (((Dev.Packed.setQueue _ _ _).trans (.setLoft _ _)).trans (.count _ 1 (packedKey_chocked c))).trans (ih _)

theorem Dev.packLoop_packed {n : Nat} (hn : n < 32) (t m : Nat) (d : Dev) : d.Packed (Dev.packLoop n t m d) := by
  induction m generalizing d with
  | zero => exact .refl d
  | succ m ih =>
    simp only [Dev.packLoop]
    split
    · exact .refl d
    · next k _ =>
      split
      · have drop := fun c => Dev.aisDrop_packed (p := 32 + n) (by omega) (by omega) k.coach c 262145 d
        split
        · exact (drop _).trans (.setThatch _ n _)
        · exact drop _
      · split
        · exact .refl d
        · exact (d.packItem_packed hn k _).trans (ih _)

theorem Dev.packItems_packed (d : Dev) {n : Nat} (hn : n < 32) (t : Nat) : d.Packed (d.packItems n t) :=
  (Dev.packLoop_packed hn t 4200 d).trans (Dev.gapRemoves_packed (p := 32 + n) (by omega) (by omega) t _)

theorem Dev.packTo_packed (d : Dev) {n : Nat} (hn : n < 32) (t : Nat) : d.Packed (d.packTo n t) := by
  unfold Dev.packTo
  split
  · exact .refl d
  · exact ((d.packItems_packed hn _).trans (.setAddRc _ _)).trans (Dev.packItems_packed _ hn t)

/-- Everything that bringing the line ports up to date can change. -/
theorem Dev.packBefore_packed (d : Dev) : d.Packed d.packBefore := .each (fun d _ hn => d.packTo_packed hn _) d

/-- With no superframe under way there is nothing to hand over. -/
theorem Dev.packBefore_idle {d : Dev} (h : ∀ n, n < 32 → (d.thatch n).txSf = none) : d.packBefore = d := by
  have fold : ∀ l : List Nat, (∀ n ∈ l, n < 32) → l.foldl (fun (e : Dev) n => e.packTo n (e.now - 1)) d = d := by
    intro l hl
    induction l with
    | nil => rfl
    | cons n r ih =>
      have stays : d.packTo n (d.now - 1) = d := by simp [Dev.packTo, h n (hl n (List.mem_cons_self ..))]
      rw [List.foldl_cons, stays]
      exact ih fun m hm => hl m (List.mem_cons_of_mem _ hm)
  exact fold _ fun n hn => List.mem_range.1 hn

theorem Dev.Packed.pst {a b : Dev} (h : a.Packed b) : b.pst = a.pst := (congrArg Dev.pst h.rest).symm

theorem Dev.Packed.host {a b : Dev} (h : a.Packed b) : b.host = a.host := (congrArg Dev.host h.rest).symm

theorem Dev.Packed.outLost {a b : Dev} (h : a.Packed b) : b.outLost = a.outLost := by
  have keep : ∀ {r : Reg} {ix : List Nat}, (r.key ix < 0x304000 ∨ 0x308000 ≤ r.key ix ∧ r.key ix < 0x401000 ∨
      0x401800 ≤ r.key ix ∧ r.key ix < 0x450000) → b.rd r ix = a.rd r ix := fun hk =>
    h.word _ (fun hp => by have := packedKey_bounds hp; omega) (fun hp => by unfold pmcKey at hp; omega)
  have c : b.rd .WHP_CFG [] = a.rd .WHP_CFG [] := keep (by decide)
  have p : b.rd .TIM_PPSO_CFG [3] = a.rd .TIM_PPSO_CFG [3] := keep (by decide)
  simp only [Dev.outLost, Dev.flag, c, p]

end Sys2Proof.Machine
end

section
/-! SUPPORT. What one dword read of the host does (R13, R15, R17, R632, R634), the access error of an unoccupied offset (R644), and
what is left of the outputs at the end of a command. -/

namespace Sys2Proof.Machine

/-! Outputs. -/

theorem Dev.Counted.out {a b : Dev} (h : a.Counted b) : b.out = a.out := by
  obtain ⟨_, _, _, _, rfl⟩ := h
  rfl

theorem Dev.pmcPass_counted (d : Dev) (n : Nat) : d.Counted (d.pmcPass n) := by
  unfold Dev.pmcPass
  extract_lets e
  refine (d.pmcSpread_counted 2 1 (d.blocksIn n) none).trans ?_
  change e.Counted _
  generalize e.pmcArmed = l
  generalize e = e
  induction l generalizing e with
  | nil => exact .refl e
  | cons x r ih =>
    refine Dev.Counted.trans ?_ (ih _)
    dsimp only
    split
    · exact .refl e
    · exact e.pmcAdd_counted _ _ _

theorem Dev.tickTo_out (d : Dev) (c : Nat) : (d.tickTo c).out = d.out := by
  unfold Dev.tickTo
  dsimp only
  split
  · rfl
  · exact (d.pmcPass_counted _).out

theorem Dev.endAccess_out (d : Dev) : d.endAccess.out = d.out := by
  unfold Dev.endAccess
  split
  · exact d.tickTo_out _
  · rfl

/-- What was handed out still is. -/
def Dev.OutGrows (a b : Dev) : Prop := a.out ⊆ b.out

theorem Dev.OutGrows.of_out {a b : Dev} (h : b.out = a.out) : a.OutGrows b := by
  unfold Dev.OutGrows
  rw [h]
  exact List.Subset.refl _

theorem Dev.OutGrows.trans {a b c : Dev} (h : a.OutGrows b) (h' : b.OutGrows c) : a.OutGrows c := List.Subset.trans h h'

theorem Dev.OutGrows.foldl {α : Type} {f : Dev → α → Dev} (hf : ∀ (d : Dev) x, d.OutGrows (f d x)) (l : List α) (d : Dev) :
    d.OutGrows (l.foldl f d) := by
  induction l generalizing d with
  | nil => exact .of_out rfl
  | cons x r ih => exact (hf d x).trans (ih _)

theorem Dev.emit_outGrows (d : Dev) (o : Out) : d.OutGrows (d.emit o) := List.subset_append_left _ _

/-- A message joins what was handed out. -/
theorem Dev.sendVec_outGrows (d : Dev) (v : Nat) : d.OutGrows (d.sendVec v) := by
  unfold Dev.sendVec
  split
  · exact .of_out rfl
  · exact (d.emit_outGrows _).trans (.of_out (Dev.pmcEvent_counted _ 19 3 none 1).out)

theorem Dev.unmask_outGrows (d : Dev) (v : Nat) : d.OutGrows (d.unmask v) := by
  unfold Dev.unmask
  split
  · extract_lets _ e
    have start : d.OutGrows e := .of_out rfl
    split
    · exact start.trans (e.sendVec_outGrows v)
    · exact start
  · exact .of_out rfl

theorem Dev.OutGrows.setHost {a b : Dev} (h : a.OutGrows b) (x : HostIf) : a.OutGrows { b with host := x } := h

theorem Dev.OutGrows.setPst (d : Dev) (x : Postilion) : d.OutGrows { d with pst := x } := .of_out rfl

theorem Dev.messages_outGrows (d : Dev) : d.OutGrows d.messages := by
  unfold Dev.messages
  refine Dev.OutGrows.setHost (Dev.OutGrows.trans (Dev.OutGrows.setPst d _) (Dev.OutGrows.foldl (fun d v => ?_) _ _)) _
  split
  · exact d.sendVec_outGrows v
  · exact .of_out rfl

/-- The end of a command adds messages to what it handed out. -/
theorem Dev.settle_outGrows (d : Dev) (h : (d.src 186).cond = d.outLost) : d.OutGrows d.settle := by
  have same : d.setCond 186 d.outLost = d := by simp [Dev.setCond, h]
  unfold Dev.settle
  simp only [same]
  split
  · exact d.messages_outGrows
  · exact d.messages_outGrows.trans (.foldl (fun e v => e.unmask_outGrows v) _ _)

/-! Words. -/

theorem row_rc_lt (r : Reg) : r.row.rc < 2 ^ 32 := by cases r <;> decide

theorem mergeBits_lt (w v : Nat) {m : Nat} (h : m < 2 ^ 32) : mergeBits w m v < 2 ^ 32 :=
  Nat.or_lt_two_pow (Nat.lt_of_le_of_lt Nat.and_le_left (Nat.mod_lt _ (by decide))) (Nat.lt_of_le_of_lt Nat.and_le_right h)

theorem Dev.rd_lt (d : Dev) (r : Reg) (ix : List Nat) : d.rd r ix < 2 ^ 32 := wordAt_lt _ _

theorem Dev.counts_count (d : Dev) (r : Reg) (ix : List Nat) (n : Nat) : Dev.Counts d (d.count r ix n) r ix n := by
  have w : (d.count r ix n).rd r ix = min (d.rd r ix + n) 0xFFFFFFFF % 2 ^ 32 := wordAt_setWord_self _ _ _
  rw [Dev.Counts, w]
  omega

theorem Dev.sets_irq (d : Dev) (r : Reg) {i : Nat} (ix : List Nat) (h : i < 32) : Dev.Sets d (d.irq r i ix) r ix (2 ^ i) := by
  have w : (d.irq r i ix).rd r ix = (d.rd r ix ||| 2 ^ i) % 2 ^ 32 := wordAt_setWord_self _ _ _
  rw [Dev.Sets, w]
  exact Nat.mod_eq_of_lt (Nat.or_lt_two_pow (d.rd_lt r ix) (Nat.pow_lt_pow_right (by decide) h))

theorem Dev.Sets.flag {a b : Dev} {r : Reg} {ix : List Nat} {i : Nat} (h : Dev.Sets a b r ix (2 ^ i)) : b.flag r ix i = true := by
  unfold Dev.flag bit
  rw [h, Nat.testBit_or, Nat.testBit_two_pow_self, Bool.or_true]

theorem Dev.Keeps.flag {ps : List Part} {ks : List Nat} {a b : Dev} (h : Dev.Keeps ps ks a b) {r : Reg} {ix : List Nat} (i : Nat)
    (hk : r.key ix ∉ ks) (hp : ¬ pmcKey (r.key ix)) : b.flag r ix i = a.flag r ix i := by
  unfold Dev.flag
  rw [h.rd hk hp]

theorem Dev.host_keeps (d : Dev) (x : HostIf) : Dev.Keeps [.host] [] d { d with host := x } := by
  refine ⟨fun p hp => ?_, fun _ _ _ => rfl⟩
  cases p <;> simp_all [Part.same]

/-! Events and access errors. -/

/-- A source that is heard is pending and counted once (R557). -/
theorem Dev.raise_reports {d : Dev} {s : Nat} (hears : d.hears s) (used : srcReserved s = false) (sev : srcSeverity s 2 ≠ 2) :
    Dev.Reports d (d.raise s) s := by
  have small : s < 189 := by
    simp only [srcReserved, Bool.or_eq_false_iff, decide_eq_false_iff_not] at used
    omega
  have stat : ∀ {r : Reg}, (r = .PST_SRC_STAT ∨ r = .PST_SRC_CNT) → r.key [s] ∉ detKeys ∧ ¬ pmcKey (r.key [s]) := by
    rintro r (rfl | rfl) <;> constructor <;> simp [detKeys, pmcKey, Reg.key, Reg.row] <;> omega
  obtain ⟨hs, hs'⟩ := stat (.inl rfl)
  obtain ⟨hc, hc'⟩ := stat (.inr rfl)
  let d1 : Dev := { d with pst := { d.pst with inCclk := tputN d.pst.inCclk s (tgetD d.pst.inCclk s 0 + 1) } }
  have one : d.raise s = ((((d1.irq .PST_SRC_STAT 31 [s]).count .PST_SRC_CNT [s]).pmcEvent 15 1)).classify s (srcSeverity s 2) := by
    have room : ¬ 255 ≤ tgetD d.pst.inCclk s 0 := Nat.not_le.2 hears
    simp [Dev.raise, Dev.events, used, Dev.oneEvent, room, d1]
  have rest : Dev.Keeps eventParts detKeys ((d1.irq .PST_SRC_STAT 31 [s]).count .PST_SRC_CNT [s]) (d.raise s) := by
    rw [one]
    exact ((Dev.pmcEvent_keeps _ (b := 15) 1 none 1 (by decide)).mono (by simp) (by simp)).trans (Dev.classify_keeps _ sev)
  have counted := (d1.irq .PST_SRC_STAT 31 [s]).count_keeps .PST_SRC_CNT [s] 1
  have set := d1.irq_keeps .PST_SRC_STAT 31 [s]
  constructor
  · rw [rest.flag 31 hs hs', counted.flag 31 (by simp [Reg.key, Reg.row]) hs']
    exact (d1.sets_irq .PST_SRC_STAT [s] (by decide)).flag
  · have c := (d1.irq .PST_SRC_STAT 31 [s]).counts_count .PST_SRC_CNT [s] 1
    have before : (d1.irq .PST_SRC_STAT 31 [s]).rd .PST_SRC_CNT [s] = d.rd .PST_SRC_CNT [s] :=
      set.rd (by simp [Reg.key, Reg.row]) hc'
    rw [Dev.Counts, rest.rd hc hc', c, before]

/-- Words that an access to an unoccupied offset changes beside those of its event. -/
def unoccKeys : List Nat := [Reg.key .HST_CNT [0], Reg.key .HST_INT_STAT, Reg.key .HST_ACC_ERR]

/-- What an access to an unoccupied offset leaves (R17, R644): `a` the device before, `b` after. -/
structure Dev.Unoccupied (a b : Dev) : Prop where
  counts  : Dev.Counts a b .HST_CNT [0] 1
  sets    : Dev.Sets a b .HST_INT_STAT [] 1
  valid   : b.flag .HST_ACC_ERR [] 31 = true
  reports : Dev.Reports a b 152

/-- The record of the first access error, or MORE: VALID is set either way (R644). -/
def Dev.accRecord (d : Dev) (bar2 : Bool) (cause off : Nat) : Dev :=
  if d.flag .HST_ACC_ERR [] 31 then { d with host := { d.host with accMore := true } }
  else { d.irq .HST_ACC_ERR 31 with host := { d.host with accBar := bar2, accCause := cause, accOff := off } }

theorem Dev.accRecord_keeps (d : Dev) (bar2 : Bool) (cause off : Nat) :
    Dev.Keeps [.host] [Reg.key .HST_ACC_ERR] d (d.accRecord bar2 cause off) := by
  unfold Dev.accRecord
  split
  · exact (d.host_keeps _).mono (by simp) (by simp)
  · exact ((d.irq_keeps .HST_ACC_ERR 31 []).mono (by simp) (by simp)).trans ((Dev.host_keeps _ _).mono (by simp) (by simp))

theorem Dev.accRecord_valid (d : Dev) (bar2 : Bool) (cause off : Nat) :
    (d.accRecord bar2 cause off).flag .HST_ACC_ERR [] 31 = true := by
  unfold Dev.accRecord
  split
  · next h => exact h
  · exact (d.sets_irq .HST_ACC_ERR [] (by decide)).flag

theorem Dev.accRecord_sameConds (d : Dev) (bar2 : Bool) (cause off : Nat) : d.SameConds (d.accRecord bar2 cause off) :=
  (d.accRecord_keeps bar2 cause off).sameConds (by simp)

theorem Dev.accErr_unocc (d : Dev) (bar2 : Bool) {cause : Nat} (off : Nat) (h : cause ≤ 2) :
    d.accErr bar2 cause off = ((((d.count .HST_CNT [0]).irq .HST_INT_STAT 0).raise 152).accRecord bar2 cause off) := by
  simp [Dev.accErr, Dev.accRecord, h]

theorem Dev.accErr_unocc_keeps (d : Dev) (bar2 : Bool) {cause : Nat} (off : Nat) (h : cause ≤ 2) :
    Dev.Keeps (.host :: eventParts) (unoccKeys ++ eventKeys 152) d (d.accErr bar2 cause off) := by
  rw [d.accErr_unocc bar2 off h]
  have c : Dev.Keeps (.host :: eventParts) (unoccKeys ++ eventKeys 152) d (d.count .HST_CNT [0]) :=
    (d.count_keeps .HST_CNT [0] 1).mono (by simp) (by simp [unoccKeys])
  have i := c.trans ((Dev.irq_keeps _ .HST_INT_STAT 0 []).mono (by simp) (by simp [unoccKeys]))
  have r := i.trans ((Dev.raise_keeps _ (s := 152) (by decide)).mono (by simp +contextual) (by simp +contextual))
  exact r.trans ((Dev.accRecord_keeps _ bar2 cause off).mono (by simp) (by simp [unoccKeys]))

theorem Dev.accErr_unocc_sameConds (d : Dev) (bar2 : Bool) {cause : Nat} (off : Nat) (h : cause ≤ 2) :
    d.SameConds (d.accErr bar2 cause off) := by
  rw [d.accErr_unocc bar2 off h]
  exact (Dev.SameConds.of_src (b := (d.count .HST_CNT [0]).irq .HST_INT_STAT 0) rfl).trans
    ((Dev.raise_sameConds _ (by decide)).trans (Dev.accRecord_sameConds _ _ _ _))

theorem Dev.accErr_unocc_leaves {d : Dev} (hears : d.hears 152) (bar2 : Bool) {cause : Nat} (off : Nat) (h : cause ≤ 2) :
    d.Unoccupied (d.accErr bar2 cause off) := by
  rw [d.accErr_unocc bar2 off h]
  have count := d.count_keeps .HST_CNT [0] 1
  have irq := (d.count .HST_CNT [0]).irq_keeps .HST_INT_STAT 0 []
  have raise := ((d.count .HST_CNT [0]).irq .HST_INT_STAT 0).raise_keeps (s := 152) (by decide)
  have record := (((d.count .HST_CNT [0]).irq .HST_INT_STAT 0).raise 152).accRecord_keeps bar2 cause off
  refine ⟨?_, ?_, Dev.accRecord_valid _ _ _ _, ?_⟩
  · rw [Dev.Counts, record.rd (by decide) (by unfold pmcKey; decide), raise.rd (by decide) (by unfold pmcKey; decide),
      irq.rd (by decide) (by unfold pmcKey; decide), d.counts_count .HST_CNT [0] 1]
  · rw [Dev.Sets, record.rd (by decide) (by unfold pmcKey; decide), raise.rd (by decide) (by unfold pmcKey; decide),
      (d.count .HST_CNT [0]).sets_irq .HST_INT_STAT [] (i := 0) (by decide), count.rd (by decide) (by unfold pmcKey; decide),
      Nat.pow_zero]
  · obtain ⟨pend, counted⟩ :=
      Dev.raise_reports (d := (d.count .HST_CNT [0]).irq .HST_INT_STAT 0) (s := 152) hears (by decide) (by decide)
    constructor
    · rw [record.flag 31 (by decide) (by unfold pmcKey; decide), pend]
    · rw [Dev.Counts, record.rd (by decide) (by unfold pmcKey; decide), counted, irq.rd (by decide) (by unfold pmcKey; decide),
        count.rd (by decide) (by unfold pmcKey; decide)]

/-- What follows and keeps those words keeps the account of the access. -/
theorem Dev.Unoccupied.after {a b c : Dev} (h : a.Unoccupied b) {ps : List Part} (k : Dev.Keeps ps [] b c) : a.Unoccupied c where
  counts  := (k.rd (by simp) (by unfold pmcKey; decide)).trans h.counts
  sets    := (k.rd (by simp) (by unfold pmcKey; decide)).trans h.sets
  valid   := (k.flag 31 (by simp) (by unfold pmcKey; decide)).trans h.valid
  reports := ⟨(k.flag 31 (by simp) (by unfold pmcKey; decide)).trans h.reports.1,
    (k.rd (by simp) (by unfold pmcKey; decide)).trans h.reports.2⟩

end Sys2Proof.Machine
end

section
/-! SUPPORT. Host reads (R13, R15, R17, R632, R634, R644): what each kind of word reads and leaves, and the statement O39 on it. -/

namespace Sys2Proof.Machine

/-! The device that a read finds. -/

theorem State.asked_pst (s : State) : s.asked.pst = s.dev.pst :=
  (Dev.pmcEvent_pst _ 19 1 none 1).trans (Dev.packBefore_packed { s.dev with out := [] }).pst

theorem State.asked_host (s : State) : s.asked.host = s.dev.host :=
  (Dev.pmcEvent_host _ 19 1 none 1).trans (Dev.packBefore_packed { s.dev with out := [] }).host

theorem State.asked_hears {s : State} {n : Nat} (h : s.dev.hears n) : s.asked.hears n := by
  unfold Dev.hears
  rw [s.asked_pst]
  exact h

/-- The condition of F186 is still the one last reported. -/
theorem State.Ready.asked_lost {s : State} (h : s.Ready) : (s.asked.src 186).cond = s.asked.outLost := by
  have packed := Dev.packBefore_packed { s.dev with out := [] }
  have lost : s.asked.outLost = s.dev.outLost :=
    (Dev.pmcEvent_quiet _ 1 none 1 (b := 19) (by decide)).outLost.trans (packed.outLost.trans (Dev.clearOut_quiet s.dev).outLost)
  rw [lost, Dev.src, s.asked_pst]
  exact h.settled.lost

/-- Without a superframe under way the read finds the device as it is (R174). -/
theorem State.asked_keeps {s : State} (h : ∀ n, n < 32 → (s.dev.thatch n).txSf = none) : Dev.Keeps [] [] s.dev s.asked := by
  have idle : ({ s.dev with out := [] } : Dev).packBefore = { s.dev with out := [] } := Dev.packBefore_idle h
  unfold State.asked
  rw [idle]
  exact (Dev.clearOut_quiet s.dev).keeps.trans (Dev.pmcEvent_keeps _ (b := 19) 1 none 1 (by decide))

/-! One dword. -/

theorem Dev.resolve_regAt {d : Dev} {off k : Nat} {r : Reg} {ix : List Nat} (h : d.resolve off = some (k, r, ix)) :
    regAt k = some (r, ix) := by
  simp only [Dev.resolve, Option.bind_eq_some_iff, Option.map_eq_some_iff, Prod.mk.injEq] at h
  obtain ⟨_, _, ⟨_, _⟩, hr, rfl, rfl, rfl⟩ := h
  exact hr

/-- A word with RC fields is not the word of a register without them. -/
theorem Dev.resolve_ne_of_rc {d : Dev} {off k j : Nat} {r q : Reg} {ix jx : List Nat} (h : d.resolve off = some (k, r, ix))
    (rc : r.row.rc ≠ 0) (hj : regAt j = some (q, jx)) (hq : q.row.rc = 0) : j ≠ k := by
  rintro rfl
  have e := (Dev.resolve_regAt h).symm.trans hj
  simp only [Option.some.injEq, Prod.mk.injEq] at e
  exact rc (e.1 ▸ hq)

theorem tdel_of_none {α : Type} {t : Tab α} {k : Nat} (h : tget t k = none) : tdel t k = t := by
  induction t with
  | nil => rfl
  | cons e r ih =>
    obtain ⟨j, v⟩ := e
    by_cases hj : j = k
    · simp [tget, hj] at h
    · have hr : tget r k = none := by simpa [tget, hj] using h
      simpa [tdel, hj] using ih hr

theorem Dev.latchRead_plain {d : Dev} {k : Nat} {r : Reg} {ix : List Nat} (hi : hiWord r ix = none)
    (free : tget d.host.latch k = none) : d.latchRead k r ix = (d, d.regValue r ix) := by
  simp [Dev.latchRead, hi, free, tdel_of_none free]

theorem Dev.latchRead_lo {d : Dev} {k : Nat} {r h : Reg} {ix hx : List Nat} (hi : hiWord r ix = some (h, hx))
    (free : tget d.host.latch k = none) : d.latchRead k r ix =
      ({ d with host := { d.host with latch := tset d.host.latch (h.key hx) (d.regValue h hx) } }, d.regValue r ix) := by
  simp [Dev.latchRead, hi, free, tdel_of_none free]

theorem Dev.latchRead_latched {d : Dev} {k v : Nat} {r : Reg} {ix : List Nat} (hi : hiWord r ix = none)
    (latched : tget d.host.latch k = some v) :
    d.latchRead k r ix = ({ d with host := { d.host with latch := tdel d.host.latch k } }, v) := by
  simp [Dev.latchRead, hi, latched]

theorem Dev.clearRead_noRc (d : Dev) (k v : Nat) {r : Reg} (h : r.row.rc = 0) : d.clearRead k r v = (d, v) := by
  simp [Dev.clearRead, h]

/-- The device whose RC fields at k a read has cleared but for what this CCLK added (R15). -/
def Dev.rcCleared (d : Dev) (k m : Nat) : Dev :=
  { d with words := setWord d.words k (mergeBits (wordAt d.words k) m (min (tgetD d.addRc k (0, 0)).1 m)), addRc := tdel d.addRc k }

theorem Dev.clearRead_rc (d : Dev) (k v : Nat) {r : Reg} (h : r.row.rc ≠ 0) :
    d.clearRead k r v = (d.rcCleared k r.row.rc, v - (tgetD d.addRc k (0, 0)).2) := by
  simp [Dev.clearRead, Dev.rcCleared, h]

theorem Dev.rcCleared_keeps (d : Dev) (k m : Nat) : Dev.Keeps [] [k] d (d.rcCleared k m) :=
  d.words_keeps [k] _ d.set1c _ fun _ hj => wordAt_setWord_ne _ _ (by simpa using hj)

theorem Dev.rcCleared_word (d : Dev) (k : Nat) {m : Nat} (h : m < 2 ^ 32) :
    wordAt (d.rcCleared k m).words k = mergeBits (wordAt d.words k) m (min (tgetD d.addRc k (0, 0)).1 m) :=
  (wordAt_setWord_self _ _ _).trans (Nat.mod_eq_of_lt (mergeBits_lt _ _ h))

theorem Dev.readDword_word {d : Dev} {off k : Nat} {r : Reg} {ix : List Nat} (h : d.resolve off = some (k, r, ix)) :
    d.readDword off = (d.latchRead k r ix).1.clearRead k r (d.latchRead k r ix).2 := by
  simp [Dev.readDword, h]

theorem Dev.readDword_hole {d : Dev} {off : Nat} (h : d.resolve off = none) : d.readDword off = (d.accErr false 1 off, 0) := by
  simp [Dev.readDword, h]

/-! A read command. -/

theorem exec_clearingRead_one (off : Nat) (s : State) :
    exec (.clearingRead ⟨.bar0 off, [15]⟩) s = onDev s fun d => d.hostRead off 15 := rfl

theorem exec_coherentLoRead_one (off : Nat) (s : State) :
    exec (.coherentLoRead ⟨.bar0 off, [15]⟩) s = onDev s fun d => d.hostRead off 15 := rfl

theorem exec_unoccupiedRead_one (off : Nat) (s : State) :
    exec (.unoccupiedRead ⟨.bar0 off, [15]⟩) s = onDev s fun d => d.hostRead off 15 := rfl

/-- Every byte of a dword is enabled. -/
theorem ofNat_and_byteMask (v : Nat) : BitVec.ofNat 32 (v &&& byteMask 15) = BitVec.ofNat 32 v := by
  have mask : byteMask 15 = 2 ^ 32 - 1 := by decide
  apply BitVec.eq_of_toNat_eq
  rw [mask, Nat.and_two_pow_sub_one_eq_mod, BitVec.toNat_ofNat, BitVec.toNat_ofNat, Nat.mod_mod]

/-- A host read of a whole dword, by what its dword read gives. -/
theorem Dev.hostRead_whole {d e : Dev} {off v : Nat} (hot : d.host.d3hot = false)
    (read : (d.packBefore.pmcEvent 19 1).readDword (dwordOf off) = (e, v)) :
    d.hostRead off 15 = (e.emit (.rdata (dwordOf off) (BitVec.ofNat 32 v))).endAccess := by
  unfold Dev.hostRead
  rw [if_neg (by simp [hot]), read]
  dsimp only
  rw [ofNat_and_byteMask]

/-- A read command of one dword leaves what the read itself left, `d`, but for the CCLK that it takes, and hands out its value. -/
theorem State.Runs.of_read {s : State} {c : Instr} {off v : Nat} {d : Dev} {P : Dev → Prop}
    (he : exec c s = onDev s fun d => d.hostRead off 15) (ready : s.Ready) (hot : s.dev.host.d3hot = false)
    (read : s.asked.readDword (dwordOf off) = (d, v)) (lost : (d.src 186).cond = d.outLost)
    (hP : ∀ t, Dev.Keeps [.offset] [] d t → .rdata (dwordOf off) (BitVec.ofNat 32 v) ∈ t.out → P t) : s.Runs c P := by
  have effect := Dev.hostRead_whole (d := { s.dev with out := [] }) hot read
  generalize hx : (d.emit (.rdata (dwordOf off) (BitVec.ofNat 32 v))).endAccess = x at effect
  have keeps : Dev.Keeps [.offset] [] d x :=
    hx ▸ ((d.emit_quiet _).keeps.mono (by simp) (by simp)).trans (Dev.endAccess_keeps _)
  have said : .rdata (dwordOf off) (BitVec.ofNat 32 v) ∈ x.out := by
    rw [← hx, Dev.endAccess_out]
    exact List.mem_append_right _ (List.mem_singleton.2 rfl)
  have lost' : (x.src 186).cond = x.outLost := by
    rw [keeps.sameConds (by decide) 186, keeps.outLost (by simp) (by simp), lost]
  refine ⟨_, he.trans (onDev_awake ready.awake _), rfl, ?_⟩
  dsimp only
  rw [effect]
  exact hP _ (keeps.trans ((Dev.settle_quiet _ lost').keeps.mono (by simp) (by simp))) (Dev.settle_outGrows _ lost' said)

/-- A read of a word with RC fields (R13, R15). -/
theorem State.Ready.read_rc {s : State} {c : Instr} {off k : Nat} {r : Reg} {ix : List Nat} (ready : s.Ready)
    (hot : s.dev.host.d3hot = false) (he : exec c s = onDev s fun d => d.hostRead off 15)
    (word : s.asked.resolve (dwordOf off) = some (k, r, ix)) (still : ¬ pmcKey k) (rc : r.row.rc ≠ 0) (hi : hiWord r ix = none)
    (free : tget s.asked.host.latch k = none) : s.Runs c fun d =>
      .rdata (dwordOf off) (BitVec.ofNat 32 (s.asked.regValue r ix - (tgetD s.asked.addRc k (0, 0)).2)) ∈ d.out ∧
      wordAt d.words k = mergeBits (wordAt s.asked.words k) r.row.rc (min (tgetD s.asked.addRc k (0, 0)).1 r.row.rc) ∧
      Dev.Keeps [.offset] [k] s.asked d := by
  have read := Dev.readDword_word word
  rw [Dev.latchRead_plain hi free, Dev.clearRead_rc _ _ _ rc] at read
  have cleared := s.asked.rcCleared_keeps k r.row.rc
  have lost : ((s.asked.rcCleared k r.row.rc).src 186).cond = (s.asked.rcCleared k r.row.rc).outLost := by
    rw [cleared.sameConds (by decide) 186, ready.asked_lost]
    refine (cleared.outLost ?_ ?_).symm <;> rw [List.mem_singleton]
    · exact Dev.resolve_ne_of_rc (q := .WHP_CFG) (jx := []) word rc (by decide) (by decide)
    · exact Dev.resolve_ne_of_rc (q := .TIM_PPSO_CFG) (jx := [3]) word rc (by decide) (by decide)
  refine State.Runs.of_read he ready hot read lost fun t keeps said => ⟨said, ?_, ?_⟩
  · rw [keeps.2 k (by simp) still, Dev.rcCleared_word _ _ (row_rc_lt r)]
  · exact (cleared.mono (by simp) (by simp)).trans (keeps.mono (by simp) (by simp))

/-- A read of a word that changes latches only (R634): `l` are the latches it leaves. -/
theorem State.Ready.read_latch {s : State} {c : Instr} {off k v : Nat} {r : Reg} {ix : List Nat} {l : Tab Nat} (ready : s.Ready)
    (hot : s.dev.host.d3hot = false) (he : exec c s = onDev s fun d => d.hostRead off 15)
    (word : s.asked.resolve (dwordOf off) = some (k, r, ix)) (rc : r.row.rc = 0)
    (latch : s.asked.latchRead k r ix = ({ s.asked with host := { s.asked.host with latch := l } }, v)) : s.Runs c fun d =>
      .rdata (dwordOf off) (BitVec.ofNat 32 v) ∈ d.out ∧ d.host.latch = l ∧ Dev.Keeps [.host, .offset] [] s.asked d := by
  have read := Dev.readDword_word word
  rw [latch, Dev.clearRead_noRc _ _ _ rc] at read
  refine State.Runs.of_read he ready hot read ready.asked_lost fun t keeps said => ⟨said, ?_, ?_⟩
  · exact (congrArg HostIf.latch (keeps.1 .host (by decide)) :).symm
  · exact ((s.asked.host_keeps _).mono (by simp) (by simp)).trans (keeps.mono (by simp) (by simp))

/-- A read of an unoccupied offset (R17, R644). -/
theorem State.Ready.read_hole {s : State} {c : Instr} {off : Nat} (ready : s.Ready) (hot : s.dev.host.d3hot = false)
    (he : exec c s = onDev s fun d => d.hostRead off 15) (hole : s.asked.resolve (dwordOf off) = none) (hears : s.dev.hears 152) :
    s.Runs c fun d => .rdata (dwordOf off) 0 ∈ d.out ∧ s.asked.Unoccupied d ∧
      Dev.Keeps ([.host, .offset] ++ eventParts) (unoccKeys ++ eventKeys 152) s.asked d := by
  have error := s.asked.accErr_unocc_keeps false (cause := 1) (dwordOf off) (by decide)
  have leaves := Dev.accErr_unocc_leaves (State.asked_hears hears) false (cause := 1) (dwordOf off) (by decide)
  have lost : ((s.asked.accErr false 1 (dwordOf off)).src 186).cond = (s.asked.accErr false 1 (dwordOf off)).outLost := by
    rw [s.asked.accErr_unocc_sameConds false (dwordOf off) (by decide) 186, error.outLost (by decide) (by decide), ready.asked_lost]
  refine State.Runs.of_read he ready hot (Dev.readDword_hole hole) lost fun t keeps said => ⟨said, ?_, ?_⟩
  · exact leaves.after keeps
  · exact (error.mono (by simp +contextual) (by simp)).trans (keeps.mono (by simp) (by simp))

/-- Settles O39: each clause is a read of one dword of the device that the read finds. -/
theorem hostReadsReturnAndClear : Obligations.HostReadsReturnAndClear := by
  unfold Obligations.HostReadsReturnAndClear
  intro s off ready hot e
  refine ⟨?_, ?_, ?_, ?_, State.asked_keeps⟩
  · intro k r ix word still rc hi free
    exact ready.read_rc hot (exec_clearingRead_one off s) word still rc hi free
  · intro k r ix h hx word rc hi free
    obtain ⟨t, ran, waits, said, latch, keeps⟩ :=
      ready.read_latch hot (exec_coherentLoRead_one off s) word rc (Dev.latchRead_lo hi free)
    refine ⟨t, ran, waits, said, ?_, fun j _ hj => ?_, keeps⟩
    · rw [latch, tget_tset_self]
    · rw [latch, tget_tset_ne _ _ hj]
  · intro k r ix v word rc hi latched
    obtain ⟨t, ran, waits, said, latch, keeps⟩ :=
      ready.read_latch hot (exec_coherentLoRead_one off s) word rc (Dev.latchRead_latched hi latched)
    exact ⟨t, ran, waits, said, by rw [latch, tget_tdel_self], keeps⟩
  · intro hole hears
    obtain ⟨t, ran, waits, said, left, keeps⟩ :=
      ready.read_hole hot (exec_unoccupiedRead_one off s) hole hears
    exact ⟨t, ran, waits, said, left.counts, left.sets, left.valid, left.reports, keeps⟩

end Sys2Proof.Machine
end

section
/-! SUPPORT. A command at a CCLK of the beat: what its effect leaves, at the CCLK that it comes at, is what it leaves. -/

namespace Sys2Proof.Machine

/-- A command at a CCLK whose effect keeps the Postilion and the two settings of F186 ends quietly: P need only be shown for what
that effect leaves, up to quiet changes. -/
theorem State.Ready.runs_at {s : State} {c : Instr} {t : Nat} {f : Dev → Dev} {P : Dev → Prop} {ps : List Part} {ks : List Nat}
    (ready : s.Ready) (he : exec c s = onDevAt s t f) (keeps : Dev.Keeps ps ks (s.at t) (f (s.at t))) (pst : Part.pst ∉ ps)
    (hw : Reg.key .WHP_CFG ∉ ks) (hp : Reg.key .TIM_PPSO_CFG [3] ∉ ks)
    (hP : ∀ d, Dev.Keeps [] [] (f (s.at t)) d → P d) : s.Runs c P := by
  have ticked := Dev.tickTo_keeps { s.dev with out := [] } t
  have lost : ((s.at t).src 186).cond = (s.at t).outLost :=
    ready.lost ticked (ticked.sameConds (by decide)) (by simp) (by simp)
  have lost' : ((f (s.at t)).src 186).cond = (f (s.at t)).outLost := by
    rw [keeps.sameConds pst 186, keeps.outLost hw hp, lost]
  exact .of_quiet he ready.awake lost' fun d q => hP d q.keeps

/-- The end of any command changes no more than the event of F186 can. -/
theorem Dev.settle_keeps (d : Dev) : Dev.Keeps eventParts (eventKeys 186) d d.settle := by
  have lost := d.setCond_keeps (s := 186) d.outLost (by decide)
  have sent := (Dev.messages_quiet (d.setCond 186 d.outLost)).keeps
  have rest : Dev.Keeps [] [] (d.setCond 186 d.outLost).messages d.settle := by
    unfold Dev.settle
    dsimp only
    split
    · exact .refl _ _ _
    · exact (Dev.Quiet.foldl (fun d v => d.unmask_quiet v) _ _).keeps
  exact lost.trans ((sent.trans rest).mono (by simp) (by simp))

/-- A command at a CCLK, whatever its effect: P need only be shown up to the event of F186. -/
theorem State.Ready.runs_at_any {s : State} {c : Instr} {t : Nat} {f : Dev → Dev} {P : Dev → Prop} (ready : s.Ready)
    (he : exec c s = onDevAt s t f) (hP : ∀ d, Dev.Keeps eventParts (eventKeys 186) (f (s.at t)) d → P d) : s.Runs c P :=
  ⟨_, he.trans (onDev_awake ready.awake _), rfl, hP _ (Dev.settle_keeps _)⟩

/-! Frames of the updates of ports and coaches. -/

theorem Dev.ports_keeps (d : Dev) (x : Ports) : Dev.Keeps [.ports] [] d { d with ports := x } := by
  refine ⟨fun p hp => ?_, fun _ _ _ => rfl⟩
  cases p <;> simp_all [Part.same]

theorem Dev.setThatch_keeps (d : Dev) (n : Nat) (x : ThatchDyn) : Dev.Keeps [.ports] [] d (d.setThatch n x) := d.ports_keeps _

theorem Dev.co_setThatch (d : Dev) (n : Nat) (x : ThatchDyn) (c : Nat) : (d.setThatch n x).co c = d.co c := rfl

@[simp] theorem Dev.thatch_setThatch_self (d : Dev) (n : Nat) (x : ThatchDyn) : (d.setThatch n x).thatch n = x := by
  simp [Dev.thatch]

theorem Dev.modCo_keeps (d : Dev) (c : Nat) (f : CoachDyn → CoachDyn) : Dev.Keeps [.coach] [] d (d.modCo c f) := by
  refine ⟨fun p hp => ?_, fun _ _ _ => rfl⟩
  cases p <;> simp_all [Part.same, Dev.modCo]

@[simp] theorem Dev.co_modCo_self (d : Dev) (c : Nat) (f : CoachDyn → CoachDyn) : (d.modCo c f).co c = f (d.co c) := by
  simp [Dev.modCo, Dev.co]

theorem Dev.co_modCo_ne (d : Dev) {c j : Nat} (f : CoachDyn → CoachDyn) (h : j ≠ c) : (d.modCo c f).co j = d.co j := by
  simp [Dev.modCo, Dev.co, tgetD_tput_ne _ _ _ _ h]

/-- Slot A, when it is of the stage, is the slot that holds it. -/
theorem slotFor_of_slotA {x : CoachDyn} {v : Slot} (h : x.slotA = some v) : slotFor x v.stage = some v := by
  simp only [slotFor, h, beq_self_eq_true, if_true]

/-- Slot B holds a stage that slot A does not. -/
theorem slotFor_of_slotB {x : CoachDyn} {v : Slot} (ha : x.slotA.map (·.stage) ≠ some v.stage) (hb : x.slotB = some v) :
    slotFor x v.stage = some v := by
  cases h : x.slotA with
  | none => simp only [slotFor, h, hb, beq_self_eq_true, if_true]
  | some a =>
    have ne : ¬ (a.stage == v.stage) = true := fun e => ha (by rw [h, Option.map_some, eq_of_beq e])
    simp only [slotFor, h, hb, beq_self_eq_true, if_true, if_neg ne]

/-- The slot that holds a stage is of it, and is slot A, or slot B beside a slot A of another stage. -/
theorem slotFor_some {x : CoachDyn} {q : Nat} {s : Slot} (h : slotFor x q = some s) :
    s.stage = q ∧ (x.slotA = some s ∨ x.slotA.map (·.stage) ≠ some q ∧ x.slotB = some s) := by
  have inB : (match x.slotB with | some b => if b.stage == q then some b else none | none => none) = some s →
      s.stage = q ∧ x.slotB = some s := by
    intro h
    split at h
    · next b hb =>
      split at h
      · next e =>
        cases h
        exact ⟨eq_of_beq e, hb⟩
      · cases h
    · cases h
  unfold slotFor at h
  split at h
  · next a ha =>
    split at h
    · next e =>
      cases h
      exact ⟨eq_of_beq e, .inl ha⟩
    · next ne =>
      obtain ⟨stage, hb⟩ := inB h
      refine ⟨stage, .inr ⟨fun e => ne ?_, hb⟩⟩
      rw [ha, Option.map_some, Option.some.injEq] at e
      rw [e]
      exact beq_self_eq_true q
  · next ha =>
    obtain ⟨stage, hb⟩ := inB h
    refine ⟨stage, .inr ⟨fun e => ?_, hb⟩⟩
    rw [ha] at e
    cases e

/-- Putting back the slot of a stage, which is the slot that holds the stage then. -/
theorem slotFor_putSlot {x : CoachDyn} {s v : Slot} (h : slotFor x v.stage = some s) :
    slotFor (putSlot x v) v.stage = some v := by
  unfold putSlot
  obtain ⟨stage, ha | ⟨ha, hb⟩⟩ := slotFor_some h
  · rw [if_pos (by rw [ha, Option.map_some, stage]; exact beq_self_eq_true _)]
    exact slotFor_of_slotA rfl
  · rw [if_neg fun e => ha (eq_of_beq e), if_pos (by rw [hb, Option.map_some, stage]; exact beq_self_eq_true _)]
    exact slotFor_of_slotB ha rfl

theorem slotFor_lastNxt (x : CoachDyn) (b : Bool) (q : Nat) : slotFor { x with lastNxt := b } q = slotFor x q := rfl

/-! Counters. -/

theorem Dev.Counts.after {a b c : Dev} {r : Reg} {ix : List Nat} {n : Nat} {ps : List Part} {ks : List Nat}
    (h : Dev.Counts a b r ix n) (k : Dev.Keeps ps ks b c) (hk : r.key ix ∉ ks) (hp : ¬ pmcKey (r.key ix)) :
    Dev.Counts a c r ix n := (k.rd hk hp).trans h

/-- A pair of words of two devices counts alike when the words are alike. -/
theorem Dev.Wide.of_rd {a b a' b' : Dev} {lo hi : Reg × List Nat} {n : Nat} (h : Dev.Wide a b lo hi n)
    (alo : a'.rd lo.1 lo.2 = a.rd lo.1 lo.2) (ahi : a'.rd hi.1 hi.2 = a.rd hi.1 hi.2)
    (blo : b'.rd lo.1 lo.2 = b.rd lo.1 lo.2) (bhi : b'.rd hi.1 hi.2 = b.rd hi.1 hi.2) : Dev.Wide a' b' lo hi n := by
  rw [Dev.Wide, alo, ahi, blo, bhi]
  exact h

theorem Dev.add64_wide (d : Dev) {lo hi : Reg × List Nat} (n : Nat) (ne : lo.1.key lo.2 ≠ hi.1.key hi.2) :
    Dev.Wide d (d.add64 lo hi n) lo hi n := by
  have wlo : (d.add64 lo hi n).rd lo.1 lo.2 = (d.rd lo.1 lo.2 + d.rd hi.1 hi.2 * 2 ^ 32 + n) % 2 ^ 64 % 2 ^ 32 % 2 ^ 32 :=
    (wordAt_setWord_ne _ _ ne).trans (wordAt_setWord_self _ _ _)
  have whi : (d.add64 lo hi n).rd hi.1 hi.2 = (d.rd lo.1 lo.2 + d.rd hi.1 hi.2 * 2 ^ 32 + n) % 2 ^ 64 / 2 ^ 32 % 2 ^ 32 :=
    wordAt_setWord_self _ _ _
  rw [Dev.Wide, wlo, whi]
  omega

theorem Dev.add64_keeps (d : Dev) (lo hi : Reg × List Nat) (n : Nat) :
    Dev.Keeps [] [lo.1.key lo.2, hi.1.key hi.2] d (d.add64 lo hi n) :=
  ((d.wr_keeps lo.1 lo.2 _).mono (by simp) (by simp)).trans ((Dev.wr_keeps _ hi.1 hi.2 _).mono (by simp) (by simp))

/-- The words of a coach's statistics lie apart, and above the performance counters. -/
theorem wideKey (c i : Nat) : Reg.key .CST_WIDE [c, i] = 0x40000000 + (c * 0x40 + i * 4) := by simp [Reg.key, Reg.row]

theorem cntKey (c i : Nat) : Reg.key .CST_CNT [c, i] = 0x40000020 + (c * 0x40 + i * 4) := by simp [Reg.key, Reg.row]

theorem not_pmcKey_wide (c i : Nat) : ¬ pmcKey (Reg.key .CST_WIDE [c, i]) := by
  rw [wideKey]; unfold pmcKey; omega

theorem not_pmcKey_cnt (c i : Nat) : ¬ pmcKey (Reg.key .CST_CNT [c, i]) := by
  rw [cntKey]; unfold pmcKey; omega

theorem Dev.coWide_wide (d : Dev) (c p n : Nat) :
    Dev.Wide d (d.coWide c p n) (.CST_WIDE, [c, 2 * p]) (.CST_WIDE, [c, 2 * p + 1]) n :=
  d.add64_wide n (by simp only [wideKey]; omega)

/-- A 64-bit counter of a coach changes two of its words. -/
theorem Dev.coWide_keeps (d : Dev) (c p n : Nat) :
    Dev.Keeps [] [Reg.key .CST_WIDE [c, 2 * p], Reg.key .CST_WIDE [c, 2 * p + 1]] d (d.coWide c p n) := d.add64_keeps _ _ n

/-- It leaves the coach's other 64-bit counters. -/
theorem Dev.rd_coWide_ne (d : Dev) (c p n : Nat) {i : Nat} (h : i ≠ 2 * p) (h' : i ≠ 2 * p + 1) :
    (d.coWide c p n).rd .CST_WIDE [c, i] = d.rd .CST_WIDE [c, i] := by
  refine (d.coWide_keeps c p n).rd ?_ (not_pmcKey_wide c i)
  simp only [wideKey, List.mem_cons, List.not_mem_nil, or_false]
  omega

end Sys2Proof.Machine
end

section
/-! SUPPORT. Reception of superframes (R181, R182, R186): what a cipher start notes for the verdict. -/

namespace Sys2Proof.Machine

theorem exec_superframeReceive (n t : Nat) (err : Bool) (s : State) :
    exec (.superframeReceive n t err) s = onDevAt s t fun d => d.superframeReceive n err := rfl

theorem portNo_line {n : Nat} (h : n < 32) : portNo (32 + n) = n := by
  unfold portNo
  omega

theorem mem_placeArr {a b : Arrival} {l : List Arrival} (h : b ∈ placeArr a l) : b = a ∨ b ∈ l := by
  induction l with
  | nil => simpa [placeArr] using h
  | cons x r ih =>
    simp only [placeArr] at h
    split at h
    · exact List.mem_cons.1 h
    · rcases List.mem_cons.1 h with rfl | h
      · exact .inr (List.mem_cons_self ..)
      · exact (ih h).imp id (List.mem_cons_of_mem _)

theorem mem_foldl_placeArr {b : Arrival} {l m : List Arrival} (h : b ∈ l.foldl (fun l a => placeArr a l) m) :
    b ∈ l ∨ b ∈ m := by
  induction l generalizing m with
  | nil => exact .inr h
  | cons x r ih =>
    rcases ih h with h | h
    · exact .inl (List.mem_cons_of_mem _ h)
    · rcases mem_placeArr h with rfl | h
      · exact .inl (List.mem_cons_self ..)
      · exact .inr h

/-- The next cipher start of a port is of a unit of that port. -/
theorem Dev.nextStart_port {d : Dev} {p : Nat} {a : Arrival} (h : d.nextStart p = some a) : a.port = p := by
  unfold Dev.nextStart at h
  split at h
  · cases h
  · rcases mem_foldl_placeArr (List.mem_of_find?_eq_some h) with ha | ha
    · simp only [List.mem_filter, Bool.and_eq_true, beq_iff_eq] at ha
      exact ha.2.2.1
    · cases ha

/-- A line port that receives superframes has a position whose cipher start has come. -/
structure Dev.SfStarts (d : Dev) (n : Nat) (a : Arrival) : Prop where
  line  : n < 32
  run   : d.clk.run = true
  still : d.still = false
  mode  : d.thatchMode (32 + n) = true
  works : d.ibWorks (drayOf (32 + n)) = true
  next  : d.nextStart (32 + n) = some a

/-- The device that has taken position `a` of line port 32 + n and, where it is admitted, has charged its bytes (R96). -/
def Dev.sfTaken (d : Dev) (n : Nat) (a : Arrival) : Dev :=
  if d.ibAdmitted a then (d.takeArrival a).ibAdd (drayOf (32 + n)) 0 sfBytes else d.takeArrival a

theorem Dev.superframeReceive_void {d : Dev} {n : Nat} {a : Arrival} (h : d.SfStarts n a) (void : a.void = true) (err : Bool) :
    d.superframeReceive n err = (d.takeArrival a).sfVoid a (readHdr []) .go := by
  have line : ¬ 32 ≤ n := Nat.not_le.2 h.line
  simp [Dev.superframeReceive, Dev.preRun, line, h.run, h.still, h.mode, h.works, h.next, void]

/-- A position that passes checks 1 to 5 is opened under its slot (R181). -/
theorem Dev.superframeReceive_go {d : Dev} {n : Nat} {a : Arrival} {sl : Slot × Bool} (h : d.SfStarts n a) (void : a.void = false)
    (go : (d.sfTaken n a).sfCheck n (readHdr a.bytes) = (.go, some sl)) : d.superframeReceive n false =
      ((d.sfTaken n a).sfRuns n (readHdr a.bytes) .go).sfOpen a (readHdr a.bytes) sl (d.ibAdmitted a) := by
  have line : ¬ 32 ≤ n := Nat.not_le.2 h.line
  unfold Dev.sfTaken at go ⊢
  simp [Dev.superframeReceive, Dev.preRun, line, h.run, h.still, h.mode, h.works, h.next, void, go]

/-- What is noted of a void position: its verdict fails 96 CCLK after its cipher start (R186). -/
def Dev.voidNote (d : Dev) (a : Arrival) : PendingSf :=
  { port := a.port, at_ := sfVerdictAt (d.rate a.port) a true, ord := a.ord, ok := false, reached := false, tagFail := false,
    coach := (readHdr []).coach, stage := (readHdr []).stage, seq := (readHdr []).seq, probe := false, alarm := (readHdr []).alarm,
    nxt := false, octets := 0 }

theorem Dev.voidNote_at (d : Dev) (a : Arrival) : (d.voidNote a).at_ = sfStart a + 96 := by
  simp [Dev.voidNote, sfVerdictAt]

/-- A void position is noted, and the parser of its line port waits for the next FDP (R182). -/
theorem Dev.sfVoid_void {d : Dev} {n : Nat} {a : Arrival} (port : portNo a.port = n) : d.sfVoid a (readHdr []) .go =
    ({ d with ports := { d.ports with sfs := d.ports.sfs ++ [d.voidNote a] } } : Dev).setThatch n
      { d.thatch n with rxItem := .fdp } := by
  subst port
  rfl

/-- A position that passes checks 1 to 5 is noted last, with its verdict T_sf + 96 CCLK after its cipher start (R181, R186). -/
theorem Dev.sfOpen_notes (d : Dev) (a : Arrival) (h : SfHdr) (sl : Slot × Bool) (admits : Bool) :
    ∃ l v, (d.sfOpen a h sl admits).ports.sfs = l ++ [v] ∧ v.port = a.port ∧ v.ord = a.ord ∧ v.coach = h.coach ∧
      v.stage = h.stage ∧ v.seq = h.seq ∧
      v.ok = (openSuperframe sl.1.key (ivOf (d.rxSsci h.coach) h.seq sl.1.salt) a.bytes).2.2 ∧
      v.at_ = sfStart a + tSf (d.rate a.port) + 96 :=
  ⟨_, _, rfl, rfl, rfl, rfl, rfl, rfl, rfl, rfl⟩

/-! What taking a position leaves of the settings. -/

theorem Dev.peak_keeps (d : Dev) (r : Reg) (ix : List Nat) (hi lo v : Nat) : Dev.Keeps [] [r.key ix] d (d.peak r ix hi lo v) := by
  unfold Dev.peak
  exact .ite (fun _ => d.wrFld_keeps r ix hi lo _) fun _ => .refl _ _ d

theorem Dev.ibAdd_keeps (d : Dev) (k units len : Nat) :
    Dev.Keeps [.ports] [Reg.key .DRY_IB_PEAK [k]] d (d.ibAdd k units len) := by
  have peak : ∀ (e : Dev) hi lo v, Dev.Keeps [.ports] [Reg.key .DRY_IB_PEAK [k]] e (e.peak .DRY_IB_PEAK [k] hi lo v) :=
    fun e hi lo v => (e.peak_keeps .DRY_IB_PEAK [k] hi lo v).mono (by simp) (by simp)
  unfold Dev.ibAdd
  extract_lets u b _ e
  have charged : Dev.Keeps [.ports] [Reg.key .DRY_IB_PEAK [k]] d e := (d.ports_keeps _).mono (by simp) (by simp)
  exact (charged.trans (peak e 10 0 _)).trans (peak _ 28 11 _)

theorem Dev.takeArrival_keeps (d : Dev) (a : Arrival) : Dev.Keeps [.ports] [] d (d.takeArrival a) := d.ports_keeps _

theorem Dev.sfTaken_keeps (d : Dev) (n : Nat) (a : Arrival) :
    Dev.Keeps [.ports] [Reg.key .DRY_IB_PEAK [drayOf (32 + n)]] d (d.sfTaken n a) := by
  have taken : Dev.Keeps [.ports] [Reg.key .DRY_IB_PEAK [drayOf (32 + n)]] d (d.takeArrival a) :=
    (d.takeArrival_keeps a).mono (by simp) (by simp)
  unfold Dev.sfTaken
  exact .ite (fun _ => taken.trans (Dev.ibAdd_keeps _ _ _ _)) fun _ => taken

theorem Dev.sfRuns_keeps (d : Dev) (n : Nat) (h : SfHdr) (k : SfCheck) : Dev.Keeps [.ports] [] d (d.sfRuns n h k) := by
  unfold Dev.sfRuns
  dsimp only
  split <;> exact d.setThatch_keeps n _

/-- The peak of an Inbound pipe is no setting: rates and SSCI stay. -/
theorem Dev.Keeps.rate {ps : List Part} {k : Nat} {a b : Dev} (h : Dev.Keeps ps [Reg.key .DRY_IB_PEAK [k]] a b) (p : Nat) :
    b.rate p = a.rate p := by
  have dray : drayOf p < 4 := by unfold drayOf portNo; omega
  have group : b.rd .DRY_GROUP [drayOf p] = a.rd .DRY_GROUP [drayOf p] :=
    h.rd (by simp [Reg.key, Reg.row]; omega) (by simp [pmcKey, Reg.key, Reg.row]; omega)
  simp only [Dev.rate, Dev.modeOf, Dev.fld, group]

theorem Dev.Keeps.rxSsci {ps : List Part} {k : Nat} {a b : Dev} (h : Dev.Keeps ps [Reg.key .DRY_IB_PEAK [k]] a b)
    (c : Nat) : b.rxSsci c = a.rxSsci c :=
  h.rd (by simp [Reg.key, Reg.row]; omega) (by simp [pmcKey, Reg.key, Reg.row]; omega)

/-- The cipher start of a void position (R181, R182, R186). -/
theorem State.Ready.receive_void {s : State} {n t : Nat} {a : Arrival} (ready : s.Ready) (starts : (s.at t).SfStarts n a)
    (void : a.void = true) (err : Bool) : s.Runs (.superframeReceive n t err) fun d =>
      (∃ v : PendingSf, d.ports.sfs = (s.at t).ports.sfs ++ [v] ∧ v.port = a.port ∧ v.ord = a.ord ∧ v.ok = false ∧
        v.at_ = sfStart a + 96) ∧
      d.ports.arrivals = (s.at t).ports.arrivals.map (fun b => if b == a then { b with taken := true } else b) ∧
      (d.thatch n).rxItem = .fdp ∧ Dev.Keeps [.ports] [] (s.at t) d := by
  have port : portNo a.port = n := by rw [Dev.nextStart_port starts.next, portNo_line starts.line]
  have effect := (Dev.superframeReceive_void starts void err).trans (Dev.sfVoid_void port)
  have keeps : Dev.Keeps [.ports] [] (s.at t) ((s.at t).superframeReceive n err) := by
    rw [effect]
    exact ((Dev.takeArrival_keeps _ a).trans (Dev.ports_keeps _ _)).trans (Dev.setThatch_keeps _ n _)
  refine ready.runs_at (exec_superframeReceive n t err s) keeps (by decide) (by simp) (by simp) fun d rest => ?_
  have ports : d.ports = ((s.at t).superframeReceive n err).ports := (rest.1 .ports (by simp) :).symm
  refine ⟨⟨((s.at t).takeArrival a).voidNote a, ?_, rfl, rfl, rfl, Dev.voidNote_at _ a⟩, ?_, ?_,
    keeps.trans (rest.mono (by simp) (by simp))⟩
  · rw [ports, effect]
    rfl
  · rw [ports, effect]
    rfl
  · rw [Dev.thatch, ports, effect]
    exact congrArg ThatchDyn.rxItem (Dev.thatch_setThatch_self _ n _)

/-- The cipher start of a position that passes checks 1 to 5 (R181, R186). -/
theorem State.Ready.receive_go {s : State} {n t : Nat} {a : Arrival} {sl : Slot × Bool} (ready : s.Ready)
    (starts : (s.at t).SfStarts n a) (void : a.void = false)
    (go : ((s.at t).sfTaken n a).sfCheck n (readHdr a.bytes) = (.go, some sl)) : s.Runs (.superframeReceive n t false) fun d =>
      ∃ l v, d.ports.sfs = l ++ [v] ∧ v.port = a.port ∧ v.ord = a.ord ∧ v.coach = (readHdr a.bytes).coach ∧
        v.stage = (readHdr a.bytes).stage ∧ v.seq = (readHdr a.bytes).seq ∧
        v.ok = (openSuperframe sl.1.key
          (ivOf ((s.at t).rxSsci (readHdr a.bytes).coach) (readHdr a.bytes).seq sl.1.salt) a.bytes).2.2 ∧
        v.at_ = sfStart a + tSf ((s.at t).rate a.port) + 96 := by
  refine ready.runs_at_any (exec_superframeReceive n t false s) fun d rest => ?_
  have ports : d.ports = ((s.at t).superframeReceive n false).ports := (rest.1 .ports (by decide) :).symm
  have before := ((s.at t).sfTaken_keeps n a).trans
    ((Dev.sfRuns_keeps _ n (readHdr a.bytes) .go).mono (by simp) (by simp))
  rw [ports, Dev.superframeReceive_go starts void go, ← before.rate a.port, ← before.rxSsci]
  exact Dev.sfOpen_notes _ _ _ _ _

end Sys2Proof.Machine
end

section
/-! SUPPORT. Verdicts of superframes (R186, R192, R195, R216, R230), and the statement O29 on reception and verdict. -/

namespace Sys2Proof.Machine

theorem exec_superframeVerdict (n t : Nat) (s : State) :
    exec (.superframeVerdict n t) s = onDevAt s t fun d => d.nextSfVerdict n := rfl

/-- The device that has taken the verdict v off its list. -/
def Dev.sfDone (d : Dev) (v : PendingSf) : Dev := { d with ports := { d.ports with sfs := d.ports.sfs.filter (· != v) } }

/-- The verdict `v` is the oldest that is due on line port n, and no carried frame waits for it. -/
structure Dev.SfDue (d : Dev) (n : Nat) (v : PendingSf) : Prop where
  line  : n < 32
  still : d.still = false
  due   : d.ports.sfs.find? (fun v => v.port == 32 + n && decide (v.at_ ≤ d.now)) = some v
  idle  : (d.thatch n).live = []

theorem Dev.SfDue.portNo {d : Dev} {n : Nat} {v : PendingSf} (h : d.SfDue n v) : portNo v.port = n := by
  have port : v.port = 32 + n := by
    have hit := List.find?_some h.due
    simp only [Bool.and_eq_true, beq_iff_eq] at hit
    exact hit.1
  rw [port, portNo_line h.line]

theorem Dev.SfDue.verdict {d : Dev} {n : Nat} {v : PendingSf} (h : d.SfDue n v) : d.nextSfVerdict n = d.sfVerdict v := by
  simp [Dev.nextSfVerdict, h.still, h.due]

/-! The Thatch state that verdicts keep. -/

/-- Devices that differ in Thatch states at most; of line port n, in the run counters, the conditions of defects and the outcomes
that wait for their turn (R192). -/
structure Dev.TagsOnly (n : Nat) (a b : Dev) : Prop where
  rest : ∃ th, b = { a with ports := { a.ports with thatch := th } }
  port : ∃ r c w, b.thatch n = { a.thatch n with runs := r, cond := c, tagWait := w }

theorem Dev.TagsOnly.refl (n : Nat) (a : Dev) : a.TagsOnly n a := ⟨⟨_, rfl⟩, _, _, _, rfl⟩

theorem Dev.TagsOnly.trans {n : Nat} {a b c : Dev} (h : a.TagsOnly n b) (h' : b.TagsOnly n c) : a.TagsOnly n c := by
  obtain ⟨⟨_, rfl⟩, _, _, _, port⟩ := h
  obtain ⟨⟨_, rfl⟩, _, _, _, port'⟩ := h'
  exact ⟨⟨_, rfl⟩, _, _, _, by rw [port', port]⟩

theorem Dev.TagsOnly.setThatch (d : Dev) (n : Nat) (r : List Nat) (c : Nat) (w : List (Nat × Bool)) :
    d.TagsOnly n (d.setThatch n { d.thatch n with runs := r, cond := c, tagWait := w }) :=
  ⟨⟨_, rfl⟩, r, c, w, d.thatch_setThatch_self n _⟩

theorem Dev.TagsOnly.foldl {α : Type} {n : Nat} {f : Dev → α → Dev} (hf : ∀ (d : Dev) x, d.TagsOnly n (f d x)) (l : List α)
    (d : Dev) : d.TagsOnly n (l.foldl f d) := by
  induction l generalizing d with
  | nil => exact .refl n d
  | cons x r ih => exact (hf d x).trans (ih _)

theorem Dev.TagsOnly.keeps {n : Nat} {a b : Dev} (h : a.TagsOnly n b) : Dev.Keeps [.ports] [] a b := by
  obtain ⟨⟨_, rfl⟩, _⟩ := h
  exact a.ports_keeps _

theorem Dev.TagsOnly.sfs {n : Nat} {a b : Dev} (h : a.TagsOnly n b) : b.ports.sfs = a.ports.sfs := by
  obtain ⟨⟨_, rfl⟩, _⟩ := h
  rfl

theorem Dev.TagsOnly.live {n : Nat} {a b : Dev} (h : a.TagsOnly n b) : (b.thatch n).live = (a.thatch n).live := by
  obtain ⟨_, _, _, _, port⟩ := h
  rw [port]

theorem Dev.TagsOnly.co {n : Nat} {a b : Dev} (h : a.TagsOnly n b) (c : Nat) : b.co c = a.co c := by
  obtain ⟨⟨_, rfl⟩, _⟩ := h
  rfl

theorem Dev.TagsOnly.rdiCsf {n : Nat} {a b : Dev} (h : a.TagsOnly n b) :
    (b.thatch n).rdiRx = (a.thatch n).rdiRx ∧ (b.thatch n).csfRx = (a.thatch n).csfRx := by
  obtain ⟨_, _, _, _, port⟩ := h
  simp [port]

theorem Dev.tagRun_tagsOnly (d : Dev) (n : Nat) (good : Bool) : d.TagsOnly n (d.tagRun n good) :=
  .setThatch d n _ _ (d.thatch n).tagWait

theorem Dev.tagOutcome_tagsOnly (d : Dev) (n ord : Nat) (good : Bool) : d.TagsOnly n (d.tagOutcome n ord good) :=
  (Dev.TagsOnly.setThatch d n (d.thatch n).runs (d.thatch n).cond _).trans 
    (.foldl (fun (e : Dev) (o : Nat × Bool) => e.tagRun_tagsOnly n o.2) _ _)

/-- With no carried frame waiting, neither outcome reaches one. -/
theorem Dev.setThatch_idle {d : Dev} {n : Nat} (idle : (d.thatch n).live = []) :
    d.TagsOnly n (d.setThatch n { d.thatch n with live := [] }) := by
  rw [← idle]
  exact .setThatch d n _ _ _

theorem Dev.sfFail_idle {d : Dev} {n : Nat} (ord : Nat) (idle : (d.thatch n).live = []) : d.TagsOnly n (d.sfFail n ord) := by
  have none : d.sfFail n ord = d.setThatch n { d.thatch n with live := [] } := by simp [Dev.sfFail, idle]
  rw [none]
  exact Dev.setThatch_idle idle

theorem Dev.sfPass_idle {d : Dev} {n : Nat} (ord : Nat) (idle : (d.thatch n).live = []) : d.TagsOnly n (d.sfPass n ord) := by
  have none : d.sfPass n ord = d.setThatch n { d.thatch n with live := [] } := by simp [Dev.sfPass, idle]
  rw [none]
  exact Dev.setThatch_idle idle

/-! Verdicts that fail. -/

/-- What a failing verdict leaves that counter w of the coach's statistics counts. -/
structure Dev.SfCounted (a : Dev) (v : PendingSf) (w : Nat) (b : Dev) : Prop where
  sfs   : b.ports.sfs = a.ports.sfs.filter (· != v)
  keeps : Dev.Keeps [.ports] [] ((a.sfDone v).coCount v.coach w) b

theorem Dev.SfCounted.of_tags {a b : Dev} {v : PendingSf} {w n : Nat} (h : ((a.sfDone v).coCount v.coach w).TagsOnly n b) :
    a.SfCounted v w b := ⟨h.sfs, h.keeps⟩

/-- A slot that R230 has closed receives nothing: the unit counts in IN_NO_SA. -/
theorem Dev.SfDue.shut {d : Dev} {n : Nat} {v : PendingSf} (h : d.SfDue n v) (reached : v.ok = true ∨ v.tagFail = true)
    (probe : v.probe = false) (shut : d.slotShut v.coach v.stage = true) : d.SfCounted v 12 (d.nextSfVerdict n) := by
  have shut' : (d.sfDone v).slotShut v.coach v.stage = true := shut
  have effect : d.nextSfVerdict n = (((d.sfDone v).coCount v.coach 12).tagOutcome n v.ord false).sfFail n v.ord := by
    unfold Dev.sfDone at shut' ⊢
    simp [h.verdict, Dev.sfVerdict, h.portNo, probe, shut', reached]
  have tag := Dev.tagOutcome_tagsOnly ((d.sfDone v).coCount v.coach 12) n v.ord false
  rw [effect]
  exact .of_tags (tag.trans (Dev.sfFail_idle v.ord (tag.live.trans h.idle)))

/-- The outcome of a failing tag, for a position that reached check 4 (R192). -/
def Dev.sfMissed (d : Dev) (n : Nat) (v : PendingSf) : Dev := if v.reached then d.tagOutcome n v.ord false else d

theorem Dev.sfMissed_tagsOnly (d : Dev) (n : Nat) (v : PendingSf) : d.TagsOnly n (d.sfMissed n v) := by
  unfold Dev.sfMissed
  split
  · exact d.tagOutcome_tagsOnly n v.ord false
  · exact .refl n d

/-- A tag that failed counts in IN_TAG_FAIL. -/
theorem Dev.SfDue.tagFail {d : Dev} {n : Nat} {v : PendingSf} (h : d.SfDue n v) (bad : v.ok = false) (tagFail : v.tagFail = true)
    (usable : v.probe = true ∨ d.slotShut v.coach v.stage = false) : d.SfCounted v 14 (d.nextSfVerdict n) := by
  have usable' : v.probe = true ∨ (d.sfDone v).slotShut v.coach v.stage = false := usable
  have effect : d.nextSfVerdict n =
      ((((d.sfDone v).coCount v.coach 14).pmcEvent (4 + n / 8) 5 (some v.port)).sfMissed n v).sfFail n v.ord := by
    unfold Dev.sfDone at usable' ⊢
    rcases usable' with probe | shut
    · simp [h.verdict, Dev.sfVerdict, h.portNo, probe, bad, tagFail, Dev.sfMissed]
    · simp [h.verdict, Dev.sfVerdict, h.portNo, shut, bad, tagFail, Dev.sfMissed]
  have counted := Dev.pmcEvent_keeps ((d.sfDone v).coCount v.coach 14) (b := 4 + n / 8) 5 (some v.port) 1
    (by have := h.line; omega)
  generalize ((d.sfDone v).coCount v.coach 14).pmcEvent (4 + n / 8) 5 (some v.port) = x at effect counted
  have ports : x.ports = (d.sfDone v).ports := (counted.1 .ports (by simp) :).symm
  have idle : (x.thatch n).live = [] := by rw [Dev.thatch, ports]; exact h.idle
  have tag := x.sfMissed_tagsOnly n v
  have fail := tag.trans (Dev.sfFail_idle v.ord (tag.live.trans idle))
  rw [effect]
  exact ⟨by rw [fail.sfs, ports]; rfl, (counted.mono (by simp) (by simp)).trans fail.keeps⟩

/-- A verdict that counts in the statistics of its coach runs to its end so. -/
theorem State.Ready.verdict_counts {s : State} {n t w : Nat} {v : PendingSf} (ready : s.Ready)
    (counted : (s.at t).SfCounted v w ((s.at t).nextSfVerdict n)) : s.Runs (.superframeVerdict n t) fun d =>
      d.ports.sfs = (s.at t).ports.sfs.filter (· != v) ∧ Dev.Counts (s.at t) d .CST_CNT [v.coach, w - 8] 1 ∧
      Dev.Keeps [.ports] [Reg.key .CST_CNT [v.coach, w - 8]] (s.at t) d := by
  have done : Dev.Keeps [.ports] [] (s.at t) ((s.at t).sfDone v) := Dev.ports_keeps _ _
  have count : Dev.Keeps [] [Reg.key .CST_CNT [v.coach, w - 8]] ((s.at t).sfDone v) (((s.at t).sfDone v).coCount v.coach w) :=
    Dev.count_keeps _ .CST_CNT [v.coach, w - 8] 1
  have keeps : Dev.Keeps [.ports] [Reg.key .CST_CNT [v.coach, w - 8]] (s.at t) ((s.at t).nextSfVerdict n) :=
    ((done.mono (by simp) (by simp)).trans (count.mono (by simp) (by simp))).trans (counted.keeps.mono (by simp) (by simp))
  have counts : Dev.Counts (s.at t) (((s.at t).sfDone v).coCount v.coach w) .CST_CNT [v.coach, w - 8] 1 :=
    Dev.counts_count ((s.at t).sfDone v) .CST_CNT [v.coach, w - 8] 1
  refine ready.runs_at (exec_superframeVerdict n t s) keeps (by decide) ?_ ?_ fun d rest => ⟨?_, ?_, ?_⟩
  · rw [cntKey]; simp [Reg.key, Reg.row]; omega
  · rw [cntKey]; simp [Reg.key, Reg.row]; omega
  · rw [← (rest.1 .ports (by simp) :), counted.sfs]
  · exact (counts.after counted.keeps (by simp) (not_pmcKey_cnt _ _)).after rest (by simp) (not_pmcKey_cnt _ _)
  · exact keeps.trans (rest.mono (by simp) (by simp))

/-! A verdict that passes. -/

/-- NEXT_PN of the slot of a stage rises past a verified PN (R139). -/
def raiseSlot (q pn : Nat) (x : CoachDyn) : CoachDyn :=
  match slotFor x q with
  | some s => putSlot x { s with nextPn := max s.nextPn (pn + 1) }
  | none => x

/-- The stage of a verified unit is kept for the switch (R215). -/
def noteStage (q : Nat) (x : CoachDyn) : CoachDyn :=
  { x with verified := match x.verified with | some v => some (max v q) | none => some q }

theorem Dev.verified_slot (d : Dev) (k c q pn : Nat) :
    d.verified k c q pn false = (d.modCo c (raiseSlot q pn)).modCo c (noteStage q) := rfl

theorem slotFor_raiseSlot {x : CoachDyn} {q : Nat} {s : Slot} (pn : Nat) (h : slotFor x q = some s) :
    slotFor (raiseSlot q pn x) q = some { s with nextPn := max s.nextPn (pn + 1) } := by
  obtain ⟨rfl, _⟩ := slotFor_some h
  rw [raiseSlot, h]
  exact slotFor_putSlot (v := { s with nextPn := max s.nextPn (pn + 1) }) h

/-- The statistics of a coach once a superframe of `octets` carried octets has verified (R236). -/
def Dev.sfTallied (d : Dev) (c octets : Nat) : Dev := (d.coWide c 2 1).coWide c 3 octets

theorem Dev.sfTallied_units (d : Dev) (c octets : Nat) :
    Dev.Wide d (d.sfTallied c octets) (.CST_WIDE, [c, 4]) (.CST_WIDE, [c, 5]) 1 :=
  (d.coWide_wide c 2 1).of_rd rfl rfl (Dev.rd_coWide_ne _ c 3 octets (by decide) (by decide))
    (Dev.rd_coWide_ne _ c 3 octets (by decide) (by decide))

theorem Dev.sfTallied_octets (d : Dev) (c octets : Nat) :
    Dev.Wide d (d.sfTallied c octets) (.CST_WIDE, [c, 6]) (.CST_WIDE, [c, 7]) octets :=
  ((d.coWide c 2 1).coWide_wide c 3 octets).of_rd (d.rd_coWide_ne c 2 1 (by decide) (by decide)).symm
    (d.rd_coWide_ne c 2 1 (by decide) (by decide)).symm rfl rfl

theorem Dev.sfTallied_keeps (d : Dev) (c octets : Nat) :
    Dev.Keeps [] ((List.range 8).map fun i => Reg.key .CST_WIDE [c, i]) d (d.sfTallied c octets) :=
  ((d.coWide_keeps c 2 1).mono (by simp) (by simp [List.range_succ])).trans
    ((Dev.coWide_keeps _ c 3 octets).mono (by simp) (by simp [List.range_succ]))

/-- What a passing verdict of line port n leaves of the flags of its superframe, once its unit is counted (R192, R195, R216). -/
def Dev.sfFlagged (d : Dev) (n : Nat) (v : PendingSf) : Dev :=
  let e := (d.tagOutcome n v.ord true).modCo v.coach fun x => { x with lastNxt := v.nxt }
  (e.setThatch n { e.thatch n with rdiRx := bit v.alarm 14, csfRx := bit v.alarm 13 }).sfPass n v.ord

/-- The device that has taken the passing verdict v off its list and raised NEXT_PN of its slot (R139, R215). -/
def Dev.sfRaised (d : Dev) (v : PendingSf) : Dev :=
  ((d.sfDone v).modCo v.coach (raiseSlot v.stage v.seq)).modCo v.coach (noteStage v.stage)

theorem Dev.SfDue.pass {d : Dev} {n : Nat} {v : PendingSf} (h : d.SfDue n v) (ok : v.ok = true) (probe : v.probe = false)
    (shut : d.slotShut v.coach v.stage = false) :
    d.nextSfVerdict n = ((d.sfRaised v).sfTallied v.coach v.octets).sfFlagged n v := by
  have shut' : (d.sfDone v).slotShut v.coach v.stage = false := shut
  unfold Dev.sfDone at shut'
  simp only [h.verdict, Dev.sfVerdict, h.portNo, ok, probe, shut', Dev.verified_slot, Dev.sfFlagged, Dev.sfTallied, Dev.sfRaised,
    Dev.sfDone, Bool.true_or, Bool.and_false, Bool.false_eq_true, if_false, if_true]

theorem Dev.sfRaised_keeps (d : Dev) (v : PendingSf) : Dev.Keeps [.ports, .coach] [] d (d.sfRaised v) :=
  (((d.ports_keeps _).mono (by simp) (by simp)).trans ((Dev.modCo_keeps _ _ _).mono (by simp) (by simp))).trans
    ((Dev.modCo_keeps _ _ _).mono (by simp) (by simp))

/-- The slot of the stage has its NEXT_PN past SEQ. -/
theorem Dev.sfRaised_slot {d : Dev} {v : PendingSf} {sl : Slot} (slot : slotFor (d.co v.coach) v.stage = some sl) :
    slotFor ((d.sfRaised v).co v.coach) v.stage = some { sl with nextPn := max sl.nextPn (v.seq + 1) } := by
  rw [Dev.sfRaised, Dev.co_modCo_self, Dev.co_modCo_self]
  exact slotFor_raiseSlot v.seq slot

theorem Dev.sfRaised_co_ne (d : Dev) {v : PendingSf} {j : Nat} (h : j ≠ v.coach) : (d.sfRaised v).co j = d.co j := by
  rw [Dev.sfRaised, Dev.co_modCo_ne _ _ h, Dev.co_modCo_ne _ _ h]
  rfl

theorem Dev.sfTallied_ports (d : Dev) (c octets : Nat) : (d.sfTallied c octets).ports = d.ports := by
  simp [Dev.sfTallied, Dev.coWide]

theorem Dev.sfTallied_co (d : Dev) (c octets j : Nat) : (d.sfTallied c octets).co j = d.co j := by
  simp [Dev.sfTallied, Dev.coWide, Dev.co]

/-- What the flags of a passing verdict change, with no carried frame waiting: NXT of the coach, RDI and CSF of the port. -/
structure Dev.SfFlags (n : Nat) (v : PendingSf) (a b : Dev) : Prop where
  keeps : Dev.Keeps [.ports, .coach] [] a b
  sfs   : b.ports.sfs = a.ports.sfs
  co    : b.co v.coach = { a.co v.coach with lastNxt := v.nxt }
  other : ∀ j, j ≠ v.coach → b.co j = a.co j
  rdi   : (b.thatch n).rdiRx = bit v.alarm 14
  csf   : (b.thatch n).csfRx = bit v.alarm 13

theorem Dev.sfFlagged_flags {d : Dev} {n : Nat} (v : PendingSf) (idle : (d.thatch n).live = []) :
    d.SfFlags n v (d.sfFlagged n v) := by
  unfold Dev.sfFlagged
  extract_lets e
  have tag := d.tagOutcome_tagsOnly n v.ord true
  have flagged := e.thatch_setThatch_self n { e.thatch n with rdiRx := bit v.alarm 14, csfRx := bit v.alarm 13 }
  have idle' : (e.thatch n).live = [] := tag.live.trans idle
  have pass := Dev.sfPass_idle v.ord ((congrArg ThatchDyn.live flagged).trans idle')
  exact
    { keeps := (((tag.keeps.mono (by simp) (by simp)).trans ((Dev.modCo_keeps _ v.coach _).mono (by simp) (by simp))).trans
        ((e.setThatch_keeps n _).mono (by simp) (by simp))).trans (pass.keeps.mono (by simp) (by simp))
      sfs := pass.sfs.trans tag.sfs
      co := by rw [pass.co, Dev.co_setThatch, Dev.co_modCo_self, tag.co]
      other := fun j hj => by rw [pass.co, Dev.co_setThatch, Dev.co_modCo_ne _ _ hj, tag.co]
      rdi := pass.rdiCsf.1.trans (congrArg ThatchDyn.rdiRx flagged)
      csf := pass.rdiCsf.2.trans (congrArg ThatchDyn.csfRx flagged) }

/-- The verdict of a superframe that verified under a slot of its coach (R139, R186, R195, R216, R236). -/
theorem State.Ready.verdict_passes {s : State} {n t : Nat} {v : PendingSf} {sl : Slot} (ready : s.Ready)
    (due : (s.at t).SfDue n v) (ok : v.ok = true) (probe : v.probe = false)
    (slot : slotFor ((s.at t).co v.coach) v.stage = some sl) (good : sl.rxBad = false) :
    s.Runs (.superframeVerdict n t) fun d =>
      d.ports.sfs = (s.at t).ports.sfs.filter (· != v) ∧
      slotFor (d.co v.coach) v.stage = some { sl with nextPn := max sl.nextPn (v.seq + 1) } ∧ (d.co v.coach).lastNxt = v.nxt ∧
      (d.thatch n).rdiRx = bit v.alarm 14 ∧ (d.thatch n).csfRx = bit v.alarm 13 ∧
      (∀ j, j ≠ v.coach → d.co j = (s.at t).co j) ∧
      Dev.Wide (s.at t) d (.CST_WIDE, [v.coach, 4]) (.CST_WIDE, [v.coach, 5]) 1 ∧
      Dev.Wide (s.at t) d (.CST_WIDE, [v.coach, 6]) (.CST_WIDE, [v.coach, 7]) v.octets ∧
      Dev.Keeps [.ports, .coach] ((List.range 8).map fun i => Reg.key .CST_WIDE [v.coach, i]) (s.at t) d := by
  generalize hx : ((s.at t).sfRaised v).sfTallied v.coach v.octets = x
  have shut : (s.at t).slotShut v.coach v.stage = false := by simp [Dev.slotShut, slot, good]
  have effect : (s.at t).nextSfVerdict n = x.sfFlagged n v := hx ▸ due.pass ok probe shut
  have idle : (x.thatch n).live = [] := by
    rw [← hx, Dev.thatch, Dev.sfTallied_ports]
    exact due.idle
  have flags := effect ▸ Dev.sfFlagged_flags v idle
  have tallied := ((s.at t).sfRaised v).sfTallied_keeps v.coach v.octets
  have units := hx ▸ ((s.at t).sfRaised v).sfTallied_units v.coach v.octets
  have octets := hx ▸ ((s.at t).sfRaised v).sfTallied_octets v.coach v.octets
  have keeps : Dev.Keeps [.ports, .coach] ((List.range 8).map fun i => Reg.key .CST_WIDE [v.coach, i]) (s.at t)
      ((s.at t).nextSfVerdict n) :=
    ((((s.at t).sfRaised_keeps v).mono (by simp) (by simp)).trans ((hx ▸ tallied).mono (by simp) (by simp))).trans
      (flags.keeps.mono (by simp) (by simp))
  have low : ∀ k, k < 0x40000000 → k ∉ (List.range 8).map fun i => Reg.key .CST_WIDE [v.coach, i] := by
    intro k hk hm
    obtain ⟨i, _, rfl⟩ := List.mem_map.1 hm
    rw [wideKey] at hk
    omega
  refine ready.runs_at (exec_superframeVerdict n t s) keeps (by decide) (low _ (by decide)) (low _ (by decide)) fun d rest => ?_
  have ports : d.ports = ((s.at t).nextSfVerdict n).ports := (rest.1 .ports (by simp) :).symm
  have co : ∀ j, d.co j = ((s.at t).nextSfVerdict n).co j := fun j =>
    congrArg (fun c : Coaches => tgetD c.dyn j .init) (rest.1 .coach (by simp) :).symm
  have thatch : d.thatch n = ((s.at t).nextSfVerdict n).thatch n := congrArg (fun p : Ports => tgetD p.thatch n thatchInit) ports
  have before : ∀ i, (s.at t).rd .CST_WIDE [v.coach, i] = ((s.at t).sfRaised v).rd .CST_WIDE [v.coach, i] := fun i =>
    (((s.at t).sfRaised_keeps v).rd (by simp) (not_pmcKey_wide _ i)).symm
  have word : ∀ i, d.rd .CST_WIDE [v.coach, i] = x.rd .CST_WIDE [v.coach, i] := fun i =>
    (rest.rd (by simp) (not_pmcKey_wide _ i)).trans (flags.keeps.rd (by simp) (not_pmcKey_wide _ i))
  refine ⟨?_, ?_, ?_, ?_, ?_, fun j hj => ?_, ?_, ?_, keeps.trans (rest.mono (by simp) (by simp))⟩
  · rw [ports, flags.sfs, ← hx, Dev.sfTallied_ports]
    rfl
  · rw [co, flags.co, slotFor_lastNxt, ← hx, Dev.sfTallied_co, Dev.sfRaised_slot slot]
  · rw [co, flags.co]
  · rw [thatch, flags.rdi]
  · rw [thatch, flags.csf]
  · rw [co, flags.other j hj, ← hx, Dev.sfTallied_co, Dev.sfRaised_co_ne _ hj]
  · exact units.of_rd (before 4) (before 5) (word 4) (word 5)
  · exact octets.of_rd (before 6) (before 7) (word 6) (word 7)

/-- Settles O29: a cipher start notes its verdict last on the list, and a verdict that is due is one of three: it passes, its tag
failed, or its slot is closed. -/
theorem superframesAreVerifiedOnTime : Obligations.SuperframesAreVerifiedOnTime := by
  unfold Obligations.SuperframesAreVerifiedOnTime
  intro s n t ready line e p
  refine ⟨fun a run still mode works next => ?_, fun v still due idle => ?_⟩
  · have starts : e.SfStarts n a := ⟨line, run, still, mode, works, next⟩
    exact ⟨fun void err => ready.receive_void starts void err, fun sl void go => ready.receive_go starts void go⟩
  · have hv : e.SfDue n v := ⟨line, still, due, idle⟩
    refine ⟨fun sl ok probe slot good => ready.verdict_passes hv ok probe slot good, fun bad tagFail usable => ?_,
      fun reached probe shut => ?_⟩
    · exact ready.verdict_counts (hv.tagFail bad tagFail usable)
    · exact ready.verdict_counts (hv.shut reached probe shut)

end Sys2Proof.Machine
end

section
/-! SUPPORT. Fatal events before beat 0 (R275, R608): they end the pair link's exchange, which the frames of O12 and O19 leave out. -/

namespace Sys2Proof.Machine

/-- Before beat 0, with the exchange of the pair link key under way: this vault has drawn its nonce. The configuration image is being
read again, and enables channel 0, which has not trained. -/
def exchangeBegun : State :=
  { dev := { Dev.afterReset .blank 0 0 with
      vault := { Vault.reset with rootOk := true, engOk := true, trngOk := true, nonce := some 3 }
      boot := { Boot.reset with
        stage := 4, clockEnd := true, vaultEnd := true, flashEnd := true, shadow := [(Reg.key .TBM_CH_CFG [0], 0x80000000#32)] } }
    pending := [] }

/-- A state whose device is awake, with no vector pending, is ready when its bookkeeping, which can be evaluated, is settled. -/
theorem State.Ready.of_idle {s : State} (awake : s.dev.inReset = false) (pend : s.dev.host.pend = 0)
    (settled : s.dev.host.touch = 0 ∧ s.dev.pst.v4req = false ∧ s.dev.host.cond = s.dev.condMask ∧
      (s.dev.src 186).cond = s.dev.outLost) : s.Ready := by
  obtain ⟨touch, event, cond, lost⟩ := settled
  exact ⟨awake, touch, event, cond, fun v _ h => by simp [bit, pend] at h, lost⟩

theorem exchangeBegun_ready : exchangeBegun.Ready := .of_idle rfl rfl (by decide +kernel)

theorem exec_knownAnswerTest (pass : Bool) (s : State) :
    exec (.knownAnswerTest pass) s = onDev s fun d => d.headEnds.knownAnswer pass := rfl

theorem exec_tbmChannelTraining (c failStep margin : Nat) (s : State) :
    exec (.tbmChannelTraining c failStep margin) s = onDev s fun d => d.trainChannel c failStep margin := rfl

/-- F011 before beat 0 stops the start sequence, and with it the Ridge: the nonce is dropped. -/
theorem failedTest_dropsNonce {t : State} (h : exec (.knownAnswerTest false) exchangeBegun = .next t) : t.dev.vault.nonce = none := by
  rw [exec_knownAnswerTest, onDev_awake exchangeBegun_ready.awake, Host.Outcome.next.injEq] at h
  rw [← h]
  decide +kernel

/-- So does F088 of a channel that fails step 1 of its training. -/
theorem failedTraining_dropsNonce {t : State} (h : exec (.tbmChannelTraining 0 1 8) exchangeBegun = .next t) :
    t.dev.vault.nonce = none := by
  rw [exec_tbmChannelTraining, onDev_awake exchangeBegun_ready.awake, Host.Outcome.next.injEq] at h
  rw [← h]
  decide +kernel

/-- Refutes O19: a known-answer test that fails before beat 0 does not only clear the engine's OK in the vault. F011 stops the start
sequence (R608), the Ridge loses its lock and the exchange of the pair link key ends (R275). -/
theorem not_selfTestsPassAndFail : ¬ Obligations.SelfTestsPassAndFail := by
  unfold Obligations.SelfTestsPassAndFail
  intro h
  obtain ⟨_, fails, _⟩ := h exchangeBegun exchangeBegun_ready
  obtain ⟨t, ht, _, vault, _⟩ := fails rfl (by unfold Dev.hears; decide)
  have gone := failedTest_dropsNonce ht
  rw [vault] at gone
  exact absurd gone (by decide)

/-- Refutes O12: the frame of a training that fails leaves out the vault. F088 + c stops the start sequence (R608), the Ridge loses its
lock and the exchange of the pair link key ends (R275). -/
theorem not_startStagesAndTraining : ¬ Obligations.StartStagesAndTraining := by
  unfold Obligations.StartStagesAndTraining
  intro h
  obtain ⟨_, _, trains⟩ := h exchangeBegun exchangeBegun_ready (by decide) (by decide)
  obtain ⟨_, fails⟩ := trains 0 1 8 (by decide) rfl rfl (by decide +kernel) (by decide)
  obtain ⟨t, ht, _, _, _, _, keeps⟩ := fails (.inl (by decide)) (by unfold Dev.hears; decide)
  have same : exchangeBegun.dev.vault = t.dev.vault := keeps.1 .vault (by decide)
  have gone := failedTraining_dropsNonce ht
  rw [← same] at gone
  exact absurd gone (by decide)

end Sys2Proof.Machine
end

section
/-! SUPPORT. Regeneration attempts (R241, R242): the third that fails stops the device, and what stopping it counts. -/

namespace Sys2Proof.Machine

/-- A unit without bytes, due at once on egress slot 32. -/
def emptyUnit : Pkt :=
  { ingress := 0, beat := 0, index := 0, offset := 0, rts := [], eave := 0, bytes := [], egress := 32, tc := 0, coach := 0, due := 0,
    held := 0, cells := [], pipe := 0, proc := 0, read := false, pushAt := 0, wrDiv := 0, wrStep := 0, wrFrom := 0, split := 0,
    wrNext := 0, notBefore := 0, planned := false, actual := false, ghost := false }

/-- Two attempts have failed; line port 0 sends AIS for the number 65,536, which is one past the coaches (R207), and a unit waits. -/
def strayAis : State :=
  { aisSent with dev := { aisSent.dev with
      ports := { Ports.reset with thatch := [(0, { thatchInit with txOn := true, txSf := some { aisFrame with coach := 65536 } })] }
      loft := { Loft.reset with queues := [(256, [.unit emptyUnit])] }
      boot := { Boot.reset with stage := 2 }
      vault := { Vault.reset with engOk := true, pufTries := 2 } } }

theorem strayAis_ready : strayAis.Ready := .of_idle rfl rfl (by decide +kernel)

theorem exec_pufAttempt (e : Nat) (p : BitVec 256) (s : State) : exec (.pufAttempt e p) s = onDev s fun d => d.pufAttempt e p := rfl

/-- The statistics word in which a drop for the number 65,536 counts. -/
def strayKey : Nat := Reg.key .CST_CNT [65536, 0]

/-- The third attempt that fails brings the port up to date: the unit is dropped, and counted for that number. -/
theorem thirdAttempt_countsStray {t : State} (h : exec (.pufAttempt 4000 0) strayAis = .next t) :
    wordAt t.dev.words strayKey ≠ wordAt strayAis.dev.words strayKey := by
  rw [exec_pufAttempt, onDev_awake strayAis_ready.awake, Host.Outcome.next.injEq] at h
  rw [← h]
  decide +kernel

theorem strayKey_not_fatal : strayKey ∉ fatalKeys 8 := by
  intro h
  simp only [fatalKeys, eventKeys, detKeys, packKeys, strayKey, List.mem_append, List.mem_map, List.mem_cons, List.mem_range,
    List.not_mem_nil, or_false, Reg.key, Reg.row, List.zipWith, List.sum_cons, List.sum_nil] at h
  omega

/-- Refutes O11: the frame of the third failed attempt fails where a line port sends AIS for a number past the 65,536 coaches, which no
premise rules out. F008 brings that port up to date (R363, R404), and what it drops counts in a word that `fatalKeys` does not list. -/
theorem not_pufAttemptAcceptsOrCounts : ¬ Obligations.PufAttemptAcceptsOrCounts := by
  unfold Obligations.PufAttemptAcceptsOrCounts
  intro h
  obtain ⟨_, made⟩ := h strayAis 4000 0 strayAis_ready rfl rfl rfl (by decide) (by decide)
  obtain ⟨_, _, _, third⟩ := made rfl
  obtain ⟨t, ht, _, _, _, _, _, _, keeps⟩ := third (.inl (by decide)) rfl (by unfold Dev.hears; decide)
  exact thirdAttempt_countsStray ht (keeps.2 strayKey strayKey_not_fatal (by unfold pmcKey; decide))

end Sys2Proof.Machine
end

section
/-! SUPPORT. Erasures and ended jobs: where the statements O48 and O49 leave out what the model does. -/

namespace Sys2Proof.Machine

/-- The ACTIVE of a pair that trusts its partner, with the erasure of CK index 3 in window 0. -/
def trustedErase : State :=
  { aisSent with dev := { aisSent.dev with
      ports := .reset
      pair := { Pair.reset with state := .active }
      vault := { Vault.reset with engOk := true, trusted := true, win := [(0, 0x30000000), (1, 3)] } } }

theorem trustedErase_ready : trustedErase.Ready := .of_idle rfl rfl (by decide +kernel)

theorem exec_ckErase (w : Nat) (s : State) : exec (.ckErase w) s = onDev s fun d => d.writeGo w := rfl

/-- The erasure is noted for the partner (R274). -/
theorem ckErase_forwards {t : State} (h : exec (.ckErase 0) trustedErase = .next t) : t.dev.pair ≠ trustedErase.dev.pair := by
  rw [exec_ckErase, onDev_awake trustedErase_ready.awake, Host.Outcome.next.injEq] at h
  rw [← h]
  decide +kernel

/-- Refutes O48: the frame of an erasure leaves out the pair. The ACTIVE of a trusted pair notes the delivery for its partner (R274),
so that the pair's part changes. -/
theorem not_keyWindowsTakeWordsAndJobs : ¬ Obligations.KeyWindowsTakeWordsAndJobs := by
  unfold Obligations.KeyWindowsTakeWordsAndJobs
  intro h
  obtain ⟨_, _, _, go⟩ := h trustedErase trustedErase_ready rfl
  obtain ⟨_, _, _, _, erase⟩ := go 0 (.ckErase 0) (by decide) (.inr (.inr rfl)) (by decide)
  obtain ⟨t, ht, _, _, _, _, keeps⟩ := erase (by decide) (by decide +kernel) (by decide +kernel) (by decide)
  exact ckErase_forwards ht (keeps.1 .pair (by decide) :).symm

/-- A commit's job whose last block has started and is said to end at CCLK 1,200, which no beat has. -/
def lateJob : EngJob := { work := .ckCommit, started := true, kek := 0, joined := 0, left := 0, from_ := 1200 }

/-- That job is at the head of a running device's queue. -/
def lateEnd : State :=
  { aisSent with dev := { aisSent.dev with ports := .reset, vault := { Vault.reset with engOk := true, jobs := [lateJob] } } }

theorem lateEnd_ready : lateEnd.Ready := .of_idle rfl rfl (by decide +kernel)

theorem exec_keyJobEnd (s : State) : exec .keyJobEnd s = onDev s fun d => d.headEnds.keyJobEnd := rfl

/-- KEY_JOB_END finds it at CCLK 1,199, before its end, and leaves it. -/
theorem keyJobEnd_leavesLateJob {t : State} (h : exec .keyJobEnd lateEnd = .next t) : t.dev.vault.jobs = [lateJob] := by
  rw [exec_keyJobEnd, onDev_awake lateEnd_ready.awake, Host.Outcome.next.injEq] at h
  rw [← h]
  decide +kernel

/-- Refutes O49: `Dev.jobEnds` of a job with no block left is its `from_` whatever that is. No premise holds it to a CCLK of the beat,
and a job said to end past CCLK 1,199 does not end in the command that O49 lets take it out of the queue. -/
theorem not_keyJobsUseAKekAndUnwrap : ¬ Obligations.KeyJobsUseAKekAndUnwrap := by
  unfold Obligations.KeyJobsUseAKekAndUnwrap
  intro h
  obtain ⟨_, _, _, _, commit, _⟩ := h lateEnd lateEnd_ready
  obtain ⟨t, ht, _, vault, _⟩ := commit lateJob [] 1200 rfl rfl rfl
  have left := keyJobEnd_leavesLateJob ht
  rw [vault] at left
  exact absurd left (by decide)

end Sys2Proof.Machine
end

section
/-! SUPPORT. A command whose effect reports no event, run to its end; frames of the vault's updates. -/

namespace Sys2Proof.Machine

/-- The device with another vault. -/
def Dev.withVault (d : Dev) (v : Vault) : Dev := { d with vault := v }

theorem Dev.withVault_keeps (d : Dev) (v : Vault) : Dev.Keeps [.vault] [] d (d.withVault v) := by
  refine ⟨fun p hp => ?_, fun _ _ _ => rfl⟩
  cases p <;> simp_all [Part.same, Dev.withVault]

theorem Dev.coach_keeps (d : Dev) (x : Coaches) : Dev.Keeps [.coach] [] d { d with coach := x } := by
  refine ⟨fun p hp => ?_, fun _ _ _ => rfl⟩
  cases p <;> simp_all [Part.same]

theorem Dev.board_keeps (d : Dev) (x : Board) : Dev.Keeps [.board] [] d { d with board := x } := by
  refine ⟨fun p hp => ?_, fun _ _ _ => rfl⟩
  cases p <;> simp_all [Part.same]

/-- The model's count of free values is no part of the device. -/
theorem Dev.fresh_keeps (d : Dev) (n : Nat) : Dev.Keeps [] [] d { d with fresh := n } := by
  refine ⟨fun p _ => ?_, fun _ _ _ => rfl⟩
  cases p <;> simp [Part.same]

theorem Dev.Keeps.vault {ps : List Part} {ks : List Nat} {a b : Dev} (h : Dev.Keeps ps ks a b) (hp : Part.vault ∉ ps) :
    b.vault = a.vault := (h.1 .vault hp :).symm

theorem Dev.Keeps.coach {ps : List Part} {ks : List Nat} {a b : Dev} (h : Dev.Keeps ps ks a b) (hp : Part.coach ∉ ps) :
    b.coach = a.coach := (h.1 .coach hp :).symm

theorem Dev.Keeps.board {ps : List Part} {ks : List Nat} {a b : Dev} (h : Dev.Keeps ps ks a b) (hp : Part.board ∉ ps) :
    b.board = a.board := (h.1 .board hp :).symm

/-- The device as a command finds it that takes no CCLK: nothing is handed out yet. -/
def State.start (s : State) : Dev := { s.dev with out := [] }

theorem State.start_keeps (s : State) : Dev.Keeps [] [] s.dev s.start := (Dev.clearOut_quiet s.dev).keeps

/-- A command that leaves the conditions of the sources and the two settings of F186 alone ends quietly: P need only be shown for what
its effect leaves, up to quiet changes and to messages that join the outputs. -/
theorem State.Ready.runs {s : State} {c : Instr} {f : Dev → Dev} {P : Dev → Prop} {ps : List Part} {ks : List Nat} (ready : s.Ready)
    (he : exec c s = onDev s f) (keeps : Dev.Keeps ps ks s.start (f s.start)) (conds : s.start.SameConds (f s.start))
    (hw : Reg.key .WHP_CFG ∉ ks) (hp : Reg.key .TIM_PPSO_CFG [3] ∉ ks)
    (hP : ∀ d, Dev.Keeps [] [] (f s.start) d → (f s.start).OutGrows d → Dev.Keeps ps ks s.dev d → P d) : s.Runs c P := by
  have lost := ready.lost keeps conds hw hp
  have quiet := Dev.settle_quiet _ lost
  exact ⟨_, he.trans (onDev_awake ready.awake f), rfl, hP _ quiet.keeps (Dev.settle_outGrows _ lost) (keeps.after quiet)⟩

/-- The same for a command that changes the vault alone. -/
theorem State.Ready.runs_vault {s : State} {c : Instr} {f : Dev → Dev} {P : Dev → Prop} (ready : s.Ready) (he : exec c s = onDev s f)
    (keeps : Dev.Keeps [.vault] [] s.start (f s.start))
    (hP : ∀ d, d.vault = (f s.start).vault → (f s.start).OutGrows d → Dev.Keeps [.vault] [] s.dev d → P d) : s.Runs c P :=
  ready.runs he keeps (keeps.sameConds (by decide)) (by simp) (by simp) fun d rest outs frame =>
    hP d (rest.vault (by simp)) outs frame

theorem State.Runs.imp {s : State} {c : Instr} {P Q : Dev → Prop} (h : s.Runs c P) (imp : ∀ d, P d → Q d) : s.Runs c Q := by
  obtain ⟨t, ran, waits, holds⟩ := h
  exact ⟨t, ran, waits, imp _ holds⟩

/-- A command without effect changes nothing. -/
theorem State.Ready.runs_idle {s : State} {c : Instr} {f : Dev → Dev} (ready : s.Ready) (he : exec c s = onDev s f)
    (idle : f s.start = s.start) : s.Runs c fun d => Dev.Keeps [] [] s.dev d := by
  have keeps : Dev.Keeps [] [] s.start (f s.start) := by
    rw [idle]
    exact .refl _ _ _
  exact ready.runs he keeps (keeps.sameConds (by simp)) (by simp) (by simp) fun d _ _ frame => frame

end Sys2Proof.Machine
end

section
/-! SUPPORT. The masks of the key store (R253-R256), and the statement O18 on them. -/

namespace Sys2Proof.Machine

theorem exec_maskRedraw (s : State) : exec .maskRedraw s = onDev s fun d => d.maskRedraw d.beat := rfl

theorem exec_maskSweepEnd (s : State) : exec .maskSweepEnd s = onDev s Dev.maskSweepEnd := rfl

/-- The vault with the mask drawn that was not in use, and a sweep started (R254). -/
def Vault.redrawn (v : Vault) (m : BitVec 512) : Vault :=
  { v with
    gen := !v.gen, sweep := true, sweepPos := 0,
    maskA := if v.gen then m else v.maskA, maskB := if v.gen then v.maskB else m }

/-- The device at the start of a sweep. -/
def Dev.redrawn (d : Dev) : Dev :=
  { d with
    fresh := d.fresh + 1, coach := { d.coach with remasked := [] }, vault := d.vault.redrawn (Config.draw d.fresh) }

/-- A new mask is due at beat n, and nothing is in the way. -/
structure Dev.Redraws (d : Dev) (n : Nat) : Prop where
  due  : sweepDue n = true
  rng  : d.vault.trngOk = true
  idle : d.vault.sweep = false

theorem Dev.Redraws.maskRedraw {d : Dev} {n : Nat} (h : d.Redraws n) : d.maskRedraw n = d.redrawn := by
  cases gen : d.vault.gen <;> simp [Dev.maskRedraw, h.due, h.rng, h.idle, Dev.draw, Dev.redrawn, Vault.redrawn, gen]

theorem Dev.maskRedraw_idle {d : Dev} {n : Nat} (h : ¬ d.Redraws n) : d.maskRedraw n = d := by
  unfold Dev.maskRedraw
  rw [if_neg]
  simp only [Bool.and_eq_true, Bool.not_eq_true']
  exact fun ⟨⟨due, rng⟩, idle⟩ => h ⟨due, rng, idle⟩

theorem Dev.redrawn_keeps (d : Dev) : Dev.Keeps [.vault, .coach] [] d d.redrawn := by
  have drawn := d.fresh_keeps (d.fresh + 1)
  have coach := Dev.coach_keeps { d with fresh := d.fresh + 1 } { d.coach with remasked := [] }
  exact ((drawn.mono (by simp) (by simp)).trans (coach.mono (by simp) (by simp))).trans
    ((Dev.withVault_keeps _ _).mono (by simp) (by simp))

/-- The mask that a slot is stored under, and what is stored of it, are the vault's and the coach table's. -/
theorem Dev.slotGen_congr {a b : Dev} (hv : b.vault = a.vault) (hc : b.coach = a.coach) (x : Nat) : b.slotGen x = a.slotGen x := by
  simp only [Dev.slotGen, hv, hc]

theorem Dev.stored_congr {a b : Dev} (hv : b.vault = a.vault) (hc : b.coach = a.coach) (x : Nat) : b.stored x = a.stored x := by
  simp only [Dev.stored, Dev.slotAt, Dev.co, Dev.slotGen_congr hv hc, hv, hc]

/-- At the start of a sweep every slot is under the old mask still. -/
theorem Dev.slotGen_redrawn (d : Dev) (x : Nat) : d.redrawn.slotGen x = d.vault.gen := by
  simp [Dev.slotGen, Dev.redrawn, Vault.redrawn]

theorem Dev.slotGen_idle {d : Dev} (idle : d.vault.sweep = false) (x : Nat) : d.slotGen x = d.vault.gen := by
  simp [Dev.slotGen, idle]

/-- A redraw moves no slot and rewrites none: the mask in use until then stands. -/
theorem Dev.stored_redrawn {d : Dev} (idle : d.vault.sweep = false) (x : Nat) : d.redrawn.stored x = d.stored x := by
  have mask : (if d.vault.gen then d.redrawn.vault.maskB else d.redrawn.vault.maskA) =
      if d.vault.gen then d.vault.maskB else d.vault.maskA := by
    cases gen : d.vault.gen <;> simp [Dev.redrawn, Vault.redrawn, gen]
  rw [Dev.stored, Dev.stored, Dev.slotGen_redrawn, Dev.slotGen_idle idle, mask]
  rfl

theorem State.Ready.redraws {s : State} (ready : s.Ready) (h : s.dev.Redraws s.dev.beat) : s.Runs .maskRedraw fun d =>
    d.vault = s.dev.vault.redrawn (Config.draw s.dev.fresh) ∧ d.coach = { s.dev.coach with remasked := [] } ∧
    (∀ a, d.slotGen a = s.dev.vault.gen ∧ d.stored a = s.dev.stored a) ∧ Dev.Keeps [.vault, .coach] [] s.dev d := by
  have start : s.start.Redraws s.start.beat := ⟨h.due, h.rng, h.idle⟩
  have keeps : Dev.Keeps [.vault, .coach] [] s.start (s.start.maskRedraw s.start.beat) := by
    rw [start.maskRedraw]
    exact s.start.redrawn_keeps
  refine ready.runs (exec_maskRedraw s) keeps (keeps.sameConds (by decide)) (by simp) (by simp) fun d rest _ frame => ?_
  have vault := rest.vault (by simp)
  have coach := rest.coach (by simp)
  rw [start.maskRedraw] at vault coach
  refine ⟨vault, coach, fun a => ⟨?_, ?_⟩, frame⟩
  · exact (Dev.slotGen_congr vault coach a).trans (s.start.slotGen_redrawn a)
  · exact (Dev.stored_congr vault coach a).trans (Dev.stored_redrawn start.idle a)

/-- The vault after a sweep: the old mask is zero (R254). -/
def Vault.swept (v : Vault) : Vault :=
  { v with sweep := false, sweepPos := 0, maskA := if v.gen then 0 else v.maskA, maskB := if v.gen then v.maskB else 0 }

theorem Dev.maskSweepEnd_swept {d : Dev} (runs : d.vault.sweep = true) (through : 131072 ≤ d.vault.sweepPos) :
    d.maskSweepEnd = d.withVault d.vault.swept := by
  unfold Dev.maskSweepEnd
  rw [if_pos (by simp [runs, through])]
  rfl

theorem Dev.maskSweepEnd_idle {d : Dev} (h : ¬ (d.vault.sweep = true ∧ 131072 ≤ d.vault.sweepPos)) : d.maskSweepEnd = d := by
  unfold Dev.maskSweepEnd
  rw [if_neg]
  simpa using h

/-- Settles O18: a redraw that is due and a sweep that is through are one update each, and any other command has no effect. -/
theorem masksAreRedrawnAndSwept : Obligations.MasksAreRedrawnAndSwept := by
  unfold Obligations.MasksAreRedrawnAndSwept
  intro s ready v draws
  refine ⟨fun ⟨due, rng, idle⟩ => ready.redraws ⟨due, rng, idle⟩, fun not => ?_, fun runs through => ?_, fun not => ?_⟩
  · exact ready.runs_idle (exec_maskRedraw s) (Dev.maskRedraw_idle fun h => not ⟨h.due, h.rng, h.idle⟩)
  · have effect : s.start.maskSweepEnd = s.start.withVault v.swept := Dev.maskSweepEnd_swept runs through
    refine ready.runs_vault (exec_maskSweepEnd s) ?_ fun d vault _ frame => ⟨?_, frame⟩
    · rw [effect]
      exact s.start.withVault_keeps _
    · rw [vault, effect]
      rfl
  · exact ready.runs_idle (exec_maskSweepEnd s) (Dev.maskSweepEnd_idle not)

end Sys2Proof.Machine
end

section
/-! SUPPORT. Words that the end of an operation clears, and the bit of VLT_INT_STAT that shows it (R287, R291). -/

namespace Sys2Proof.Machine

/-- The words [0] to [n - 1] of a register array. -/
def wordKeys (r : Reg) (n : Nat) : List Nat := (List.range n).map fun i => r.key [i]

theorem Dev.clearWords_succ (d : Dev) (r : Reg) (n : Nat) : d.clearWords r (n + 1) = (d.clearWords r n).wr r [n] 0 := by
  simp [Dev.clearWords, forEach, List.range_succ]

theorem wordKeys_succ (r : Reg) (n : Nat) : wordKeys r (n + 1) = wordKeys r n ++ [r.key [n]] := by
  simp [wordKeys, List.range_succ]

theorem Dev.clearWords_keeps (d : Dev) (r : Reg) (n : Nat) : Dev.Keeps [] (wordKeys r n) d (d.clearWords r n) := by
  induction n with
  | zero => exact .refl _ _ d
  | succ n ih =>
    rw [Dev.clearWords_succ, wordKeys_succ]
    exact (ih.mono (by simp) (by simp +contextual)).trans ((Dev.wr_keeps _ r [n] 0).mono (by simp) (by simp))

theorem Dev.rd_clearWords (d : Dev) (r : Reg) {i n : Nat} (h : i < n) : (d.clearWords r n).rd r [i] = 0 := by
  induction n with
  | zero => omega
  | succ n ih =>
    rw [Dev.clearWords_succ]
    by_cases same : r.key [i] = r.key [n]
    · rw [Dev.rd, same]
      exact wordAt_setWord_self _ _ 0
    · refine (wordAt_setWord_ne _ 0 same).trans (ih ?_)
      have : i ≠ n := fun e => same (e ▸ rfl)
      omega

theorem Dev.Sets.between {a a' b b' : Dev} {r : Reg} {ix : List Nat} {m : Nat} {ps qs : List Part} {ks ls : List Nat}
    (h : Dev.Sets a' b r ix m) (before : Dev.Keeps ps ks a a') (after : Dev.Keeps qs ls b b') (hk : r.key ix ∉ ks)
    (hl : r.key ix ∉ ls) (hp : ¬ pmcKey (r.key ix)) : Dev.Sets a b' r ix m := by
  rw [Dev.Sets, after.rd hl hp, h, before.rd hk hp]

/-- A bit that was set is set still. -/
theorem Dev.Sets.flag_of {a b : Dev} {r : Reg} {ix : List Nat} {m i : Nat} (h : Dev.Sets a b r ix m) (was : a.flag r ix i = true) :
    b.flag r ix i = true := by
  unfold Dev.flag bit at was ⊢
  rw [h, Nat.testBit_or, was, Bool.true_or]

theorem not_pmcKey_vltInt : ¬ pmcKey (Reg.key .VLT_INT_STAT) := by unfold pmcKey; decide

/-- Words that the end of an operation changes, whose input is the first n words of r. -/
def endKeys (r : Reg) (n : Nat) : List Nat := Reg.key .VLT_INT_STAT :: wordKeys r n

/-- The end of an operation: the vault becomes `v`, the n input words of r are zero, and OP_DONE is shown. -/
def Dev.ending (d : Dev) (v : Vault) (r : Reg) (n : Nat) : Dev := ((d.withVault v).clearWords r n).irq .VLT_INT_STAT 5

/-- What that leaves, `a` the device before and `b` after. -/
structure Dev.Ends (a : Dev) (v : Vault) (r : Reg) (n : Nat) (b : Dev) : Prop where
  keeps : Dev.Keeps [.vault] (endKeys r n) a b
  vault : b.vault = v
  shown : Dev.Sets a b .VLT_INT_STAT [] 32
  input : ∀ i, i < n → b.rd r [i] = 0

/-- The input words of a register array are neither VLT_INT_STAT nor a performance counter's. -/
structure InputWords (r : Reg) (n : Nat) : Prop where
  apart : Reg.key .VLT_INT_STAT ∉ wordKeys r n
  still : ∀ i, i < n → ¬ pmcKey (r.key [i])

theorem InputWords.mem {r : Reg} {n i : Nat} (h : i < n) : r.key [i] ∈ wordKeys r n := List.mem_map_of_mem (List.mem_range.2 h)

theorem Dev.ending_ends (d : Dev) (v : Vault) {r : Reg} {n : Nat} (words : InputWords r n) : d.Ends v r n (d.ending v r n) := by
  have left := d.withVault_keeps v
  have cleared := (d.withVault v).clearWords_keeps r n
  have shows := ((d.withVault v).clearWords r n).irq_keeps .VLT_INT_STAT 5 []
  have before : Dev.Keeps [.vault] (wordKeys r n) d ((d.withVault v).clearWords r n) :=
    (left.mono (by simp) (by simp)).trans (cleared.mono (by simp) (fun _ h => h))
  exact
    { keeps := (before.mono (by simp) (by simp +contextual [endKeys])).trans (shows.mono (by simp) (by simp [endKeys]))
      vault := (shows.vault (by simp)).trans (cleared.vault (by simp))
      shown := (Dev.sets_irq _ .VLT_INT_STAT [] (i := 5) (by decide)).between before (.refl [] [] _) words.apart (by simp)
        not_pmcKey_vltInt
      input := fun i hi =>
        (shows.rd (fun e => words.apart (List.mem_singleton.1 e ▸ InputWords.mem hi)) (words.still i hi)).trans
          (Dev.rd_clearWords _ r hi) }

/-- Quiet changes after it leave the same. -/
theorem Dev.Ends.after {a b c : Dev} {v : Vault} {r : Reg} {n : Nat} (h : a.Ends v r n b) (words : InputWords r n)
    (rest : Dev.Keeps [] [] b c) : a.Ends v r n c where
  keeps := h.keeps.trans (rest.mono (by simp) (by simp))
  vault := (rest.vault (by simp)).trans h.vault
  shown := h.shown.between (.refl [] [] a) rest (by simp) (by simp) not_pmcKey_vltInt
  input := fun i hi => (rest.rd (by simp) (words.still i hi)).trans (h.input i hi)

/-- A command whose effect is the end of an operation, in a device `e` that differs by the frame `ps`, `ks`. -/
theorem State.Ready.ends {s : State} {c : Instr} {f : Dev → Dev} {e : Dev} {v : Vault} {r : Reg} {n : Nat} {ps : List Part}
    {ks : List Nat} (ready : s.Ready) (he : exec c s = onDev s f) (words : InputWords r n) (effect : f s.start = e.ending v r n)
    (before : Dev.Keeps ps ks s.start e) (conds : s.start.SameConds e) (hw : Reg.key .WHP_CFG ∉ endKeys r n ++ ks)
    (hp : Reg.key .TIM_PPSO_CFG [3] ∉ endKeys r n ++ ks) : s.Runs c fun d =>
      e.Ends v r n d ∧ Dev.Keeps (.vault :: ps) (endKeys r n ++ ks) s.dev d := by
  have ends := e.ending_ends v words
  rw [← effect] at ends
  have keeps : Dev.Keeps (.vault :: ps) (endKeys r n ++ ks) s.start (f s.start) :=
    (before.mono (by simp +contextual) (by simp +contextual)).trans (ends.keeps.mono (by simp) (by simp +contextual))
  exact ready.runs he keeps (conds.trans (ends.keeps.sameConds (by decide))) hw hp fun d rest _ frame =>
    ⟨ends.after words rest, frame⟩

end Sys2Proof.Machine
end

section
/-! SUPPORT. The public-key unit (R251, R261-R266, R294, R295), and the statement O50 on it. -/

namespace Sys2Proof.Machine

/-! A write of VLT_PK_CTL. -/

/-- Writing GO to VLT_PK_CTL does what GO does, and takes its CCLK. -/
theorem Dev.regWrite_pkCtl {d : Dev} {v : Nat} (hot : d.host.d3hot = false) (fits : v < 2 ^ 32) (go : bit v 31 = true) :
    d.regWrite .VLT_PK_CTL [] v = ((d.pmcEvent 19 2).pkGo (bits v 30 28) (bits v 27 24)).endAccess := by
  have off : dwordOf (Reg.key .VLT_PK_CTL) = 0x20040 := by decide
  have at_ : regAt 0x20040 = some (.VLT_PK_CTL, []) := by decide +kernel
  have first : d.writeFirst (Reg.key .VLT_PK_CTL) = d := by simp [Dev.writeFirst, off]
  have val : (BitVec.ofNat 32 v).toNat = v := Nat.mod_eq_of_lt fits
  have word : ∀ e : Dev, e.writeDword 0x20040 v 15 = e.pkGo (bits v 30 28) (bits v 27 24) := by
    intro e
    simp [Dev.writeDword, Dev.resolve, at_, Dev.writeNow, Dev.writeRw, Dev.writeW1c, Dev.writeRws, Dev.touched, vectorOf,
      Dev.writeActs, go, Reg.row]
  unfold Dev.regWrite Dev.hostWrite
  rw [if_neg (by simp [hot]), first, off, val, word]

/-- The word that KEK_AGREEMENT writes. -/
theorem agreementWord {k : Nat} (h : k < 16) : let v := 2 ^ 31 + 2 ^ 28 + k % 16 * 2 ^ 24
    v < 2 ^ 32 ∧ bit v 31 = true ∧ bits v 30 28 = 1 ∧ bits v 27 24 = k := by
  revert k
  decide

theorem exec_kekAgreement (k : Nat) (s : State) :
    exec (.kekAgreement k) s = onDev s fun d => d.regWrite .VLT_PK_CTL [] (2 ^ 31 + 2 ^ 28 + k % 16 * 2 ^ 24) := rfl

theorem exec_attestation (s : State) :
    exec .attestation s = onDev s fun d => d.regWrite .VLT_PK_CTL [] (2 ^ 31 + 2 * 2 ^ 28) := rfl

theorem exec_pkOperationDone (s : State) : exec .pkOperationDone s = onDev s Dev.pkDone := rfl

theorem State.served_quiet (s : State) : s.dev.Quiet s.served :=
  (Dev.clearOut_quiet s.dev).trans (Dev.pmcEvent_quiet _ 2 none 1 (by decide))

theorem State.served_vault (s : State) : s.served.vault = s.dev.vault := s.served_quiet.keeps.vault (by simp)

/-! The unit. -/

theorem inputWords_pkIn : InputWords .VLT_PK_IN 24 where
  apart := by decide
  still := fun i h => by simp [pmcKey, Reg.key, Reg.row]; omega

/-- The vault when an operation of the public-key unit has ended. -/
def Vault.pkEnded (v : Vault) (res : Nat) : Vault := { v with pk := none, pkRes := res }

theorem Dev.pkEnd_ends (d : Dev) (res : Nat) : d.Ends (d.vault.pkEnded res) .VLT_PK_IN 24 (d.pkEnd res) :=
  d.ending_ends (d.vault.pkEnded res) inputWords_pkIn

/-! Starting an operation. -/

/-- The vault with an operation of the unit under way. -/
def Vault.pkStarted (v : Vault) (op k : Nat) : Vault := { v with pk := some (op, k) }

/-- The unit is idle, in a device that takes its operations. -/
structure Vault.PkFree (v : Vault) : Prop where
  idle  : v.pk = none
  calm  : v.resetReq = false
  works : v.engOk = true

theorem Dev.pkGo_busy {d : Dev} (busy : d.vault.pk ≠ none) (op k : Nat) : d.pkGo op k = d.irq .VLT_INT_STAT 8 := by
  unfold Dev.pkGo
  rw [if_pos (Option.isSome_iff_ne_none.2 busy)]

theorem Dev.pkGo_kekBusy {d : Dev} {k : Nat} (free : d.vault.PkFree) (busy : d.kekBusy k = true) : d.pkGo 1 k = d.pkEnd 3 := by
  simp [Dev.pkGo, free.idle, free.calm, free.works, busy]

theorem Dev.pkGo_agreement {d : Dev} {k : Nat} (free : d.vault.PkFree) (unused : d.kekBusy k = false) :
    d.pkGo 1 k = d.withVault (d.vault.pkStarted 1 k) := by
  simp [Dev.withVault, Dev.pkGo, free.idle, free.calm, free.works, unused, Vault.pkStarted]

theorem Dev.pkGo_attestation {d : Dev} (free : d.vault.PkFree) : d.pkGo 2 0 = d.withVault (d.vault.pkStarted 2 0) := by
  simp [Dev.withVault, Dev.pkGo, free.idle, free.calm, free.works, Vault.pkStarted]

/-- Command c writes VLT_PK_CTL with GO, operation `op` and KEK slot k. -/
def State.PkWrites (s : State) (c : Instr) (op k : Nat) : Prop :=
  ∃ v, exec c s = onDev s (fun d => d.regWrite .VLT_PK_CTL [] v) ∧ v < 2 ^ 32 ∧ bit v 31 = true ∧ bits v 30 28 = op ∧ bits v 27 24 = k

theorem State.pkWrites_kekAgreement (s : State) {k : Nat} (h : k < 16) : s.PkWrites (.kekAgreement k) 1 k :=
  ⟨_, exec_kekAgreement k s, agreementWord h⟩

theorem State.pkWrites_attestation (s : State) : s.PkWrites .attestation 2 0 := ⟨_, exec_attestation s, by decide⟩

/-- Such a command leaves what GO leaves, in a device that the write has been counted in, but for the CCLK that it takes. -/
theorem State.Ready.pkWrite {s : State} {c : Instr} {op k : Nat} {ps : List Part} {ks : List Nat} (ready : s.Ready)
    (hot : s.dev.host.d3hot = false) (writes : s.PkWrites c op k) (keeps : Dev.Keeps ps ks s.served (s.served.pkGo op k))
    (pst : Part.pst ∉ ps) (hw : Reg.key .WHP_CFG ∉ ks) (hp : Reg.key .TIM_PPSO_CFG [3] ∉ ks) : s.Runs c fun d =>
      Dev.Keeps [.offset] [] (s.served.pkGo op k) d ∧ Dev.Keeps (ps ++ [.offset]) ks s.dev d := by
  obtain ⟨v, he, fits, go, rfl, rfl⟩ := writes
  have effect : s.start.regWrite .VLT_PK_CTL [] v = (s.served.pkGo (bits v 30 28) (bits v 27 24)).endAccess :=
    Dev.regWrite_pkCtl hot fits go
  have counted : Dev.Keeps [] [] s.start s.served := Dev.pmcEvent_keeps _ (b := 19) 2 none 1 (by decide)
  have passes := (s.served.pkGo (bits v 30 28) (bits v 27 24)).endAccess_keeps
  have frame : Dev.Keeps (ps ++ [.offset]) ks s.start (s.start.regWrite .VLT_PK_CTL [] v) := by
    rw [effect]
    exact ((counted.mono (by simp) (by simp)).trans (keeps.mono (by simp +contextual) (fun _ h => h))).trans
      (passes.mono (by simp) (by simp))
  refine ready.runs he frame (frame.sameConds (by simpa using pst)) hw hp fun d rest _ whole => ⟨?_, whole⟩
  rw [effect] at rest
  exact passes.trans (rest.mono (by simp) (by simp))

/-- A start on an idle unit. -/
theorem State.Ready.pkStarts {s : State} {c : Instr} {op k : Nat} (ready : s.Ready) (hot : s.dev.host.d3hot = false)
    (writes : s.PkWrites c op k) (starts : s.served.pkGo op k = s.served.withVault (s.served.vault.pkStarted op k)) :
    s.Runs c fun d => d.vault = s.dev.vault.pkStarted op k ∧ Dev.Keeps [.vault, .offset] [] s.dev d := by
  have keeps : Dev.Keeps [.vault] [] s.served (s.served.pkGo op k) := by
    rw [starts]
    exact s.served.withVault_keeps _
  refine (ready.pkWrite hot writes keeps (by decide) (by simp) (by simp)).imp fun d ⟨rest, frame⟩ => ⟨?_, frame⟩
  rw [rest.vault (by decide), starts, s.served_vault]
  rfl

/-- A start on a busy unit is dropped and shown. -/
theorem State.Ready.pkDrops {s : State} {c : Instr} {op k : Nat} (ready : s.Ready) (hot : s.dev.host.d3hot = false)
    (writes : s.PkWrites c op k) (busy : s.dev.vault.pk ≠ none) : s.Runs c fun d =>
      Dev.Sets s.dev d .VLT_INT_STAT [] 256 ∧ Dev.Keeps [.offset] [Reg.key .VLT_INT_STAT] s.dev d := by
  have drops : s.served.pkGo op k = s.served.irq .VLT_INT_STAT 8 := Dev.pkGo_busy (s.served_vault ▸ busy) op k
  have keeps : Dev.Keeps [] [Reg.key .VLT_INT_STAT] s.served (s.served.pkGo op k) := by
    rw [drops]
    exact s.served.irq_keeps .VLT_INT_STAT 8 []
  refine (ready.pkWrite hot writes keeps (by simp) (by decide) (by decide)).imp fun d ⟨rest, frame⟩ => ⟨?_, frame⟩
  rw [drops] at rest
  exact (s.served.sets_irq .VLT_INT_STAT [] (i := 8) (by decide)).between s.served_quiet.keeps rest (by simp) (by simp)
    not_pmcKey_vltInt

/-- An agreement into a slot that a job uses ends at once. -/
theorem State.Ready.agreementRefused {s : State} {k : Nat} (ready : s.Ready) (hot : s.dev.host.d3hot = false) (hk : k < 16)
    (free : s.dev.vault.PkFree) (busy : s.dev.kekBusy k = true) : s.Runs (.kekAgreement k) fun d =>
      d.vault = s.dev.vault.pkEnded 3 ∧ Dev.Keeps [.vault, .offset] (endKeys .VLT_PK_IN 24) s.dev d := by
  have busy' : s.served.kekBusy k = true := by
    rw [Dev.kekBusy, s.served_vault]
    exact busy
  have ends : s.served.pkGo 1 k = s.served.pkEnd 3 := Dev.pkGo_kekBusy (s.served_vault ▸ free) busy'
  have done := s.served.pkEnd_ends 3
  rw [← ends] at done
  refine (ready.pkWrite hot (s.pkWrites_kekAgreement hk) done.keeps (by decide) (by decide) (by decide)).imp fun d ⟨rest, frame⟩ =>
    ⟨?_, frame⟩
  rw [rest.vault (by decide), done.vault, s.served_vault]

/-! Completing one. -/

/-- The operation of the unit completes with result `res`, when its effect is that end on the vault `v`. -/
theorem State.Ready.pkCompletes {s : State} {v : Vault} {res : Nat} (ready : s.Ready)
    (ends : s.start.pkDone = (s.start.withVault v).pkEnd res) : s.Runs .pkOperationDone fun d =>
      d.vault = v.pkEnded res ∧ (∀ i, i < 24 → d.rd .VLT_PK_IN [i] = 0) ∧ Dev.Sets s.dev d .VLT_INT_STAT [] 32 ∧
      Dev.Keeps [.vault] (endKeys .VLT_PK_IN 24) s.dev d := by
  have before := s.start.withVault_keeps v
  refine (ready.ends (exec_pkOperationDone s) inputWords_pkIn ends before (before.sameConds (by decide)) (by decide)
    (by decide)).imp fun d ⟨done, frame⟩ => ⟨done.vault, done.input, ?_, frame.mono (by simp) (by simp)⟩
  exact done.shown.between ((s.start_keeps.mono (by simp) (by simp)).trans before) (.refl [] [] d) (by simp) (by simp)
    not_pmcKey_vltInt

/-- An operation under way when a life-cycle transition has been made is refused. -/
theorem Dev.pkDone_refused {d : Dev} (busy : d.vault.pk ≠ none) (reset : d.vault.resetReq = true) : d.pkDone = d.pkEnd 4 := by
  unfold Dev.pkDone
  rw [if_pos (by simp [reset, Option.isSome_iff_ne_none.2 busy])]

/-- The words of the host's point. -/
def Dev.pkPoint (d : Dev) : Nat × Nat := (natOfBytes (d.wordsBytes .VLT_PK_IN 0 12), natOfBytes (d.wordsBytes .VLT_PK_IN 12 12))

theorem State.start_pkPoint (s : State) : s.start.pkPoint = s.dev.pkPoint := rfl

theorem Dev.pkDone_invalid {d : Dev} {k : Nat} (under : d.vault.pk = some (1, k)) (calm : d.vault.resetReq = false)
    (bad : ecValid d.pkPoint.1 d.pkPoint.2 = false) : d.pkDone = d.pkEnd 2 := by
  unfold Dev.pkPoint at bad
  simp only [Dev.pkDone, under, calm, bad, Bool.false_and, Bool.false_eq_true, if_false, Bool.not_false, if_true]

theorem Dev.pkDone_attested {d : Dev} {k : Nat} (under : d.vault.pk = some (2, k)) (calm : d.vault.resetReq = false) :
    d.pkDone = (d.withVault { d.vault with pkOut := d.attestSign (d.wordsBytes .VLT_PK_IN 0 12) }).pkEnd 1 := by
  simp only [Dev.pkDone, under, calm, Bool.false_and, Bool.false_eq_true, if_false, Dev.withVault]

/-- The vault that holds an agreed key in slot k and waits for its check value. -/
def Vault.agreed (v : Vault) (k : Nat) (e : Kek) : Vault := { v with kek := tset v.kek k e, pk := some (3, k) }

/-- The key that slot k takes from the agreement with the host's point (R264). -/
def Dev.agreedKek (d : Dev) (k z : Nat) : Kek := ⟨agreedKey z "FIONEKEK" (d.serialBytes ++ [BitVec.ofNat 8 k]), d.kekLimit, false⟩

theorem Dev.pkDone_agreed {d : Dev} {k z y : Nat} (under : d.vault.pk = some (1, k)) (calm : d.vault.resetReq = false)
    (valid : ecValid d.pkPoint.1 d.pkPoint.2 = true) (secret : ecMul d.vault.ident.toNat (some d.pkPoint) = some (z, y)) :
    d.pkDone = (d.withVault (d.vault.agreed k (d.agreedKek k z))).addJob (.checkValue k) := by
  unfold Dev.pkPoint at valid secret
  simp only [Dev.pkDone, under, calm, valid, secret, Bool.false_and, Bool.false_eq_true, if_false, Bool.not_true, Dev.withVault,
    Vault.agreed, Dev.agreedKek]

/-- A job that joins the queue changes the queue alone. -/
theorem Dev.addJob_form (d : Dev) (w : JobWork) : ∃ l, d.addJob w = d.withVault { d.vault with jobs := l } ∧
    (d.vault.engOk = true → l = placeJob ⟨w, false, 0, d.clk.ticks, 0, 0⟩ d.vault.jobs) := by
  unfold Dev.addJob
  split
  · exact ⟨_, rfl, fun _ => rfl⟩
  · next failed => exact ⟨_, rfl, fun works => absurd works failed⟩

/-- The agreed key is held, and its check value is asked for. -/
theorem State.Ready.pkAgrees {s : State} {k : Nat} {e : Kek} (ready : s.Ready)
    (agrees : s.start.pkDone = (s.start.withVault (s.dev.vault.agreed k e)).addJob (.checkValue k)) : s.Runs .pkOperationDone fun d =>
      tget d.vault.kek k = some e ∧ (∀ j, j ≠ k → tget d.vault.kek j = tget s.dev.vault.kek j) ∧ d.vault.pk = some (3, k) ∧
      (s.dev.vault.engOk = true →
        d.vault.jobs = placeJob ⟨.checkValue k, false, 0, s.dev.clk.ticks, 0, 0⟩ s.dev.vault.jobs) ∧
      Dev.Keeps [.vault] [] s.dev d := by
  obtain ⟨l, form, place⟩ := (s.start.withVault (s.dev.vault.agreed k e)).addJob_form (.checkValue k)
  rw [form] at agrees
  have keeps : Dev.Keeps [.vault] [] s.start s.start.pkDone := by
    rw [agrees]
    exact (Dev.withVault_keeps _ _).trans (Dev.withVault_keeps _ _)
  refine ready.runs_vault (exec_pkOperationDone s) keeps fun d vault _ frame => ?_
  rw [agrees] at vault
  rw [vault]
  exact ⟨tget_tset_self _ _ _, fun j hj => tget_tset_ne _ _ hj, rfl, place, frame⟩

/-- Settles O50: GO starts, ends or drops an operation, and each operation completes by its own effect. -/
theorem publicKeyUnitAgreesAndSigns : Obligations.PublicKeyUnitAgreesAndSigns := by
  unfold Obligations.PublicKeyUnitAgreesAndSigns
  intro s ready v inputs x y
  refine ⟨fun hot k hk => ⟨fun idle calm works unused => ?_, fun idle calm works busy => ?_, fun idle calm works => ?_, ?_⟩,
    fun busy reset => ?_, fun k z y' under calm valid secret => ?_, fun k under calm bad => ?_, fun k under calm => ?_⟩
  · have free : s.served.vault.PkFree := s.served_vault ▸ ⟨idle, calm, works⟩
    have unused' : s.served.kekBusy k = false := by
      rw [Dev.kekBusy, s.served_vault]
      exact unused
    exact ready.pkStarts hot (s.pkWrites_kekAgreement hk) (Dev.pkGo_agreement free unused')
  · refine (ready.agreementRefused hot hk ⟨idle, calm, works⟩ busy).imp fun d ⟨vault, frame⟩ => ?_
    rw [vault]
    exact ⟨rfl, rfl, rfl, frame⟩
  · exact ready.pkStarts hot s.pkWrites_attestation (Dev.pkGo_attestation (s.served_vault ▸ ⟨idle, calm, works⟩))
  · rintro busy c (rfl | rfl)
    · exact ready.pkDrops hot (s.pkWrites_kekAgreement hk) busy
    · exact ready.pkDrops hot s.pkWrites_attestation busy
  · refine (ready.pkCompletes (v := v) (Dev.pkDone_refused busy reset)).imp fun d ⟨vault, _, _, frame⟩ => ?_
    rw [vault]
    exact ⟨rfl, rfl, rfl, frame⟩
  · have valid' : ecValid s.start.pkPoint.1 s.start.pkPoint.2 = true := by
      rw [s.start_pkPoint]
      exact valid
    have secret' : ecMul s.start.vault.ident.toNat (some s.start.pkPoint) = some (z, y') := by
      rw [s.start_pkPoint]
      exact secret
    exact ready.pkAgrees (Dev.pkDone_agreed under calm valid' secret')
  · have bad' : ecValid s.start.pkPoint.1 s.start.pkPoint.2 = false := by
      rw [s.start_pkPoint]
      exact bad
    refine (ready.pkCompletes (v := v) (Dev.pkDone_invalid under calm bad')).imp fun d ⟨vault, _, shown, frame⟩ => ?_
    rw [vault]
    exact ⟨rfl, rfl, rfl, shown, frame⟩
  · refine (ready.pkCompletes (Dev.pkDone_attested (d := s.start) under calm)).imp fun d ⟨vault, input, shown, frame⟩ => ?_
    rw [vault]
    exact ⟨rfl, rfl, rfl, input, shown, frame⟩

end Sys2Proof.Machine
end

section
/-! SUPPORT. The pair link key (R274, R275, R534): the messages of the KEY channel, and the statement O52 on its exchange. -/

namespace Sys2Proof.Machine

theorem exec_pairLinkKeyExchange (s : State) : exec .pairLinkKeyExchange s = onDev s Dev.lockNonce := rfl

theorem exec_pairLinkKeyAgreed (s : State) : exec .pairLinkKeyAgreed s = onDev s Dev.linkKeyAgreed := rfl

theorem exec_keyChannelReceive (b : Nat) (m : Bytes) (s : State) :
    exec (.keyChannelReceive b m) s = onDev s fun d => d.keyReceive b m := rfl

/-! Sending. -/

theorem keyMessage_kind (kind part : Nat) (b : Bytes) : field (keyMessage kind part b) 0 1 = kind % 256 := by
  simp [field, keyMessage, natOfBytes]

theorem keyMessage_part (kind part : Nat) (b : Bytes) : field (keyMessage kind part b) 1 1 = part % 256 := by
  simp [field, keyMessage, natOfBytes]

/-- The device that has handed the messages `l` to the KEY channel. -/
def Dev.sent (d : Dev) (l : List Bytes) : Dev :=
  { d with vault := { d.vault with keyQ := d.vault.keyQ ++ l }, out := d.out ++ l.map .keyMsg }

theorem Dev.sent_nil (d : Dev) : d.sent [] = d := by simp [Dev.sent]

theorem Dev.sent_sent (d : Dev) (l m : List Bytes) : (d.sent l).sent m = d.sent (l ++ m) := by simp [Dev.sent]

theorem Dev.sendKey_sent (d : Dev) (m : Bytes) : d.sendKey m = d.sent [m] := rfl

theorem Dev.sent_keeps (d : Dev) (l : List Bytes) : Dev.Keeps [.vault] [] d (d.sent l) := by
  refine ⟨fun p hp => ?_, fun _ _ _ => rfl⟩
  cases p <;> simp_all [Part.same, Dev.sent]

/-- Fragment i of the certificate (R534). -/
def Dev.fragment (d : Dev) (i : Nat) : Bytes := keyMessage 1 i ((d.otp.cert.drop (252 * i)).take 252)

/-- The attestation over the partner's nonce (R275). -/
def Dev.attested (d : Dev) (n : BitVec 384) : Bytes :=
  keyMessage 2 0 ((d.attestMsg (bytesOfNat 48 n.toNat)).take 74 ++ d.attestSign (bytesOfNat 48 n.toNat) ++ d.ckOwnerHash)

theorem Dev.fragment_sent (d : Dev) (l : List Bytes) (i : Nat) : (d.sent l).fragment i = d.fragment i := rfl

theorem Dev.attested_sent (d : Dev) (l : List Bytes) (n : BitVec 384) : (d.sent l).attested n = d.attested n := rfl

/-- KIND and PART of the messages that answer a nonce: four fragments of the certificate and the attestation. -/
def answersNonce (l : List Bytes) : Prop :=
  l.map (fun x => (field x 0 1, field x 1 1)) = [(1, 0), (1, 1), (1, 2), (1, 3), (2, 0)]

theorem Dev.sendAttestation_none {d : Dev} (h : d.vault.peerNonce = none) : d.sendAttestation = d := by
  simp only [Dev.sendAttestation, h]

theorem Dev.sendAttestation_some {d : Dev} {n : BitVec 384} (h : d.vault.peerNonce = some n) :
    d.sendAttestation = d.sent [d.fragment 0, d.fragment 1, d.fragment 2, d.fragment 3, d.attested n] := by
  have certificate : (forEach 4 d fun d i => d.sendKey (d.fragment i)) =
      d.sent [d.fragment 0, d.fragment 1, d.fragment 2, d.fragment 3] := by
    simp only [forEach, List.range_succ, List.range_zero, List.nil_append, List.cons_append, List.foldl_cons, List.foldl_nil,
      Dev.sendKey_sent, Dev.fragment_sent, Dev.sent_sent]
  have answer : d.sendAttestation = (forEach 4 d fun d i => d.sendKey (d.fragment i)).sendKey
      ((forEach 4 d fun d i => d.sendKey (d.fragment i)).attested n) := by
    simp only [Dev.sendAttestation, h]
    rfl
  rw [answer, certificate, Dev.sendKey_sent, Dev.attested_sent, Dev.sent_sent]
  rfl

/-- The partner's nonce, once it has come, is answered. -/
theorem Dev.sendAttestation_sent (d : Dev) :
    ∃ l, d.sendAttestation = d.sent l ∧ if d.vault.peerNonce = none then l = [] else answersNonce l := by
  cases h : d.vault.peerNonce with
  | none => exact ⟨[], by rw [Dev.sendAttestation_none h, Dev.sent_nil], rfl⟩
  | some n =>
    refine ⟨_, Dev.sendAttestation_some h, ?_⟩
    simp [answersNonce, Dev.fragment, Dev.attested, keyMessage_kind, keyMessage_part]

/-- The Ridge is up both ways, and the vault can draw its nonce. -/
structure Dev.DrawsNonce (d : Dev) : Prop where
  rng  : d.vault.trngOk = true
  free : d.vault.nonce = none
  up   : d.ridge.linkUp = true
  peer : d.ridge.peerUp = true

/-- The nonce that is drawn, and the message that sends it (R275, R534). -/
def Dev.newNonce (d : Dev) : BitVec 384 := (Config.draw d.fresh).truncate 384

def nonceMessage (n : BitVec 384) : Bytes := keyMessage 4 0 (bytesOfNat 48 n.toNat)

/-- The device that has drawn its nonce. -/
def Dev.nonceDrawn (d : Dev) : Dev := { d with fresh := d.fresh + 1, vault := { d.vault with nonce := some d.newNonce } }

theorem Dev.nonceDrawn_keeps (d : Dev) : Dev.Keeps [.vault] [] d d.nonceDrawn :=
  ((d.fresh_keeps (d.fresh + 1)).mono (by simp) (by simp)).trans (Dev.withVault_keeps _ _)

theorem Dev.DrawsNonce.lockNonce {d : Dev} (h : d.DrawsNonce) :
    d.lockNonce = (d.nonceDrawn.sent [nonceMessage d.newNonce]).sendAttestation := by
  unfold Dev.lockNonce
  rw [if_pos (by simp [h.rng, h.free, h.up, h.peer])]
  rfl

theorem Dev.lockNonce_idle {d : Dev} (h : ¬ d.DrawsNonce) : d.lockNonce = d := by
  unfold Dev.lockNonce
  rw [if_neg]
  simp only [Bool.and_eq_true, Option.isNone_iff_eq_none]
  exact fun ⟨⟨⟨rng, free⟩, up⟩, peer⟩ => h ⟨rng, free, up, peer⟩

/-- The exchange starts: the nonce goes first, and the answer to the partner's, if that has come, after it. -/
theorem State.Ready.exchange {s : State} (ready : s.Ready) (draws : s.dev.DrawsNonce) : s.Runs .pairLinkKeyExchange fun d =>
    ∃ n : BitVec 384, d.vault = { s.dev.vault with nonce := some n, keyQ := d.vault.keyQ } ∧ .keyMsg (nonceMessage n) ∈ d.out ∧
      (∃ l, d.vault.keyQ = s.dev.vault.keyQ ++ [nonceMessage n] ++ l ∧
        if s.dev.vault.peerNonce = none then l = [] else answersNonce l) ∧
      Dev.Keeps [.vault] [] s.dev d := by
  have start : s.start.DrawsNonce := ⟨draws.rng, draws.free, draws.up, draws.peer⟩
  obtain ⟨l, sent, answers⟩ := (s.start.nonceDrawn.sent [nonceMessage s.start.newNonce]).sendAttestation_sent
  rw [← start.lockNonce, Dev.sent_sent] at sent
  have keeps : Dev.Keeps [.vault] [] s.start s.start.lockNonce := by
    rw [sent]
    exact s.start.nonceDrawn_keeps.trans (Dev.sent_keeps _ _)
  refine ready.runs_vault (exec_pairLinkKeyExchange s) keeps fun d vault outs frame => ?_
  rw [sent] at vault outs
  refine ⟨s.start.newNonce, by rw [vault]; rfl, outs ?_, ⟨l, ?_, answers⟩, frame⟩
  · simp [Dev.sent]
  · rw [vault, List.append_assoc]
    rfl

/-! Receiving. -/

/-- The bytes that a message of the KEY channel carries. -/
def keyBody (m : Bytes) : Bytes := (m.drop 4).take (field m 2 2)

theorem Dev.keyReceive_down {d : Dev} (down : d.ridge.linkUp = false) (b : Nat) (m : Bytes) : d.keyReceive b m = d := by
  simp [Dev.keyReceive, down]

theorem Dev.keyReceive_fragment {d : Dev} {m : Bytes} (up : d.ridge.linkUp = true) (kind : field m 0 1 = 1) (b : Nat) :
    d.keyReceive b m = d.withVault { d.vault with peerCert := tset d.vault.peerCert (field m 1 1 % 4) (keyBody m) } := by
  simp only [Dev.keyReceive, up, kind, Bool.not_true, Bool.false_eq_true, if_false, Dev.withVault, keyBody]

theorem Dev.keyReceive_identity {d : Dev} {m : Bytes} {pub : BitVec 384 × BitVec 384} (up : d.ridge.linkUp = true)
    (kind : field m 0 1 = 2) (accepts : d.acceptPartner (keyBody m) = some pub) (b : Nat) : d.keyReceive b m =
      d.withVault { d.vault with peerPub := some pub, peerSerial := BitVec.ofNat 64 (field (keyBody m) 8 8) } := by
  unfold keyBody at accepts
  simp only [Dev.keyReceive, up, kind, accepts, Bool.not_true, Bool.false_eq_true, if_false, Dev.withVault, keyBody]

theorem Dev.keyReceive_rejected {d : Dev} {m : Bytes} (up : d.ridge.linkUp = true) (kind : field m 0 1 = 2)
    (rejects : d.acceptPartner (keyBody m) = none) (b : Nat) : d.keyReceive b m = d := by
  unfold keyBody at rejects
  simp only [Dev.keyReceive, up, kind, rejects, Bool.not_true, Bool.false_eq_true, if_false]

theorem Dev.keyReceive_delivery {d : Dev} {m : Bytes} (up : d.ridge.linkUp = true) (kind : field m 0 1 = 3)
    (apart : d.takesChannels = false) (b : Nat) : d.keyReceive b m = d := by
  simp [Dev.keyReceive, up, kind, Dev.deliveryReceive, apart]

theorem Dev.keyReceive_nonce {d : Dev} {m : Bytes} (up : d.ridge.linkUp = true) (kind : field m 0 1 = 4) (b : Nat) :
    d.keyReceive b m =
      (d.withVault { d.vault with peerNonce := some (BitVec.ofNat 384 (natOfBytes (keyBody m))) }).attestIfDrawn := by
  simp only [Dev.keyReceive, up, kind, Bool.not_true, Bool.false_eq_true, if_false, Dev.withVault, keyBody]

/-- A nonce that comes is answered once this vault has drawn its own. -/
theorem Dev.attestIfDrawn_sent {d : Dev} {n : BitVec 384} (h : d.vault.peerNonce = some n) :
    ∃ l, d.attestIfDrawn = d.sent l ∧ if d.vault.nonce = none then l = [] else answersNonce l := by
  obtain ⟨l, sent, answers⟩ := d.sendAttestation_sent
  unfold Dev.attestIfDrawn
  cases own : d.vault.nonce with
  | none => exact ⟨[], by simp [Dev.sent_nil], rfl⟩
  | some x => exact ⟨l, by simpa using sent, by simpa [h] using answers⟩

theorem State.Ready.receiveFragment {s : State} {m : Bytes} (ready : s.Ready) (up : s.dev.ridge.linkUp = true)
    (kind : field m 0 1 = 1) (b : Nat) : s.Runs (.keyChannelReceive b m) fun d =>
      d.vault = { s.dev.vault with peerCert := tset s.dev.vault.peerCert (field m 1 1 % 4) (keyBody m) } ∧
      Dev.Keeps [.vault] [] s.dev d := by
  have effect := Dev.keyReceive_fragment (d := s.start) up kind b
  refine ready.runs_vault (exec_keyChannelReceive b m s) ?_ fun d vault _ frame => ⟨?_, frame⟩
  · rw [effect]
    exact Dev.withVault_keeps _ _
  · rw [vault, effect]
    rfl

theorem State.start_acceptPartner (s : State) (b : Bytes) : s.start.acceptPartner b = s.dev.acceptPartner b := rfl

theorem State.Ready.receiveIdentity {s : State} {m : Bytes} {pub : BitVec 384 × BitVec 384} (ready : s.Ready)
    (up : s.dev.ridge.linkUp = true) (kind : field m 0 1 = 2) (accepts : s.dev.acceptPartner (keyBody m) = some pub) (b : Nat) :
    s.Runs (.keyChannelReceive b m) fun d =>
      (d.vault.peerPub = some pub ∧ d.vault.peerSerial = BitVec.ofNat 64 (field (keyBody m) 8 8)) ∧
      Dev.Keeps [.vault] [] s.dev d := by
  have effect := Dev.keyReceive_identity (d := s.start) up kind ((s.start_acceptPartner _).trans accepts) b
  refine ready.runs_vault (exec_keyChannelReceive b m s) ?_ fun d vault _ frame => ⟨?_, frame⟩
  · rw [effect]
    exact Dev.withVault_keeps _ _
  · rw [vault, effect]
    exact ⟨rfl, rfl⟩

/-- An attestation that does not hold is dropped. -/
theorem State.Ready.receiveRejected {s : State} {m : Bytes} (ready : s.Ready) (up : s.dev.ridge.linkUp = true)
    (kind : field m 0 1 = 2) (rejects : s.dev.acceptPartner (keyBody m) = none) (b : Nat) :
    s.Runs (.keyChannelReceive b m) fun d => d.vault = s.dev.vault ∧ Dev.Keeps [.vault] [] s.dev d := by
  have effect := Dev.keyReceive_rejected (d := s.start) up kind ((s.start_acceptPartner _).trans rejects) b
  exact (ready.runs_idle (exec_keyChannelReceive b m s) effect).imp fun d frame =>
    ⟨frame.vault (by simp), frame.mono (by simp) (by simp)⟩

theorem State.Ready.receiveNonce {s : State} {m : Bytes} (ready : s.Ready) (up : s.dev.ridge.linkUp = true)
    (kind : field m 0 1 = 4) (b : Nat) : s.Runs (.keyChannelReceive b m) fun d =>
      d.vault = { s.dev.vault with peerNonce := some (BitVec.ofNat 384 (natOfBytes (keyBody m))), keyQ := d.vault.keyQ } ∧
      (∃ l, d.vault.keyQ = s.dev.vault.keyQ ++ l ∧ if s.dev.vault.nonce = none then l = [] else answersNonce l) ∧
      Dev.Keeps [.vault] [] s.dev d := by
  obtain ⟨l, sent, answers⟩ := Dev.attestIfDrawn_sent
    (d := s.start.withVault { s.dev.vault with peerNonce := some (BitVec.ofNat 384 (natOfBytes (keyBody m))) }) rfl
  have effect := (Dev.keyReceive_nonce (d := s.start) up kind b).trans sent
  refine ready.runs_vault (exec_keyChannelReceive b m s) ?_ fun d vault _ frame => ⟨?_, ⟨l, ?_, answers⟩, frame⟩
  · rw [effect]
    exact (Dev.withVault_keeps _ _).trans (Dev.sent_keeps _ _)
  · rw [vault, effect]
    rfl
  · rw [vault, effect]
    rfl

/-! Agreeing. -/

theorem State.start_linkKey (s : State) (pub : BitVec 384 × BitVec 384) : s.start.linkKey pub = s.dev.linkKey pub := rfl

theorem Dev.linkKeyAgreed_some {d : Dev} {pub : BitVec 384 × BitVec 384} {k : BitVec 256} (held : d.vault.peerPub = some pub)
    (key : d.linkKey pub = some k) : d.linkKeyAgreed = d.withVault { d.vault with pairKey := k, trusted := true } := by
  simp only [Dev.linkKeyAgreed, held, key, Dev.withVault]

theorem Dev.linkKeyAgreed_none {d : Dev} (h : d.vault.peerPub = none) : d.linkKeyAgreed = d := by
  simp only [Dev.linkKeyAgreed, h]

/-- Settles O52: each message and each end of the exchange is one update of the vault, by its kind. -/
theorem pairLinkKeyIsAgreed : Obligations.PairLinkKeyIsAgreed := by
  unfold Obligations.PairLinkKeyIsAgreed
  intro s ready v sends body answers
  refine ⟨fun ⟨rng, free, up, peer⟩ => ready.exchange ⟨rng, free, up, peer⟩, fun not => ?_,
    fun b m up kind => ready.receiveFragment up kind b, fun b m up kind => ?_,
    fun b m up kind => ready.receiveNonce up kind b, fun b m up kind apart => ?_, fun b m down => ?_, fun pub k held key => ?_,
    fun none => ?_⟩
  · exact ready.runs_idle (exec_pairLinkKeyExchange s) (Dev.lockNonce_idle fun h => not ⟨h.rng, h.free, h.up, h.peer⟩)
  · cases accepts : s.dev.acceptPartner (body m) with
    | none => exact ready.receiveRejected up kind accepts b
    | some pub => exact ready.receiveIdentity up kind accepts b
  · exact ready.runs_idle (exec_keyChannelReceive b m s) (Dev.keyReceive_delivery (d := s.start) up kind apart b)
  · exact ready.runs_idle (exec_keyChannelReceive b m s) (Dev.keyReceive_down (d := s.start) down b m)
  · have effect := Dev.linkKeyAgreed_some (d := s.start) held ((s.start_linkKey pub).trans key)
    refine ready.runs_vault (exec_pairLinkKeyAgreed s) ?_ fun d vault _ frame => ⟨?_, frame⟩
    · rw [effect]
      exact Dev.withVault_keeps _ _
    · rw [vault, effect]
      rfl
  · exact ready.runs_idle (exec_pairLinkKeyAgreed s) (Dev.linkKeyAgreed_none none)

end Sys2Proof.Machine
end

section
/-! SUPPORT. The life cycle (R248-R251, R291, R295): what a checked record writes, how a command ends, and the statement O51. -/

namespace Sys2Proof.Machine

/-! What a record writes. -/

/-- OP, epoch and hash of a command record (R248). -/
def lcOp (rec : Bytes) : Nat := natOfBytes ((rec.drop 4).take 1)
def lcEpoch (rec : Bytes) : Nat := natOfBytes ((rec.drop 5).take 1)
def lcHash (rec : Bytes) : BitVec 384 := BitVec.ofNat 384 (natOfBytes ((rec.drop 16).take 48))

/-- The OTP with the writes of a record that passes: a RETURN burns its fuse, a CLAIM the owner's hash and the OWNER fuse, a TRANSFER
the hash and an EPOCH fuse (R249). -/
def lcWrites (epoch : Nat) (o : Otp) (rec : Bytes) : Otp :=
  let hashed := { o with ownerHash := tset o.ownerHash (lcEpoch rec) (lcHash rec, true) }
  if lcOp rec = 3 then { o with lcReturn := true }
  else if lcOp rec = 1 then { hashed with lcOwner := true }
  else { hashed with epochs := epoch + 1 }

/-- A record that passes the checks: its signer is the one of its OP, its serial number the device's, its epoch the one that the OP
names (R248, R249). -/
structure LcPasses (lc : LifeCycle) (epoch : Nat) (o : Otp) (rec : Bytes) (o' : Otp) : Prop where
  signer : lcSigner lc (lcOp rec) epoch (otpHeld o) (lcHash rec) = some (sha384N ((rec.drop 64).take 96))
  serial : natOfBytes ((rec.drop 8).take 8) = (otpHeld o).serial.toNat
  named  : lcEpoch rec = if lcOp rec = 1 then 0 else if lcOp rec = 2 then epoch + 1 else epoch
  writes : o' = lcWrites epoch o rec

theorem lcCheck_passes {lc : LifeCycle} {epoch : Nat} {o o' : Otp} {rec : Bytes} (h : lcCheck lc epoch o rec = .inr o') :
    LcPasses lc epoch o rec o' := by
  unfold lcCheck at h
  extract_lets op ep newHash signer want at h
  split at h
  · cases h
  split at h
  · cases h
  next k hk =>
  split at h
  · cases h
  next serial =>
  split at h
  · cases h
  split at h
  · cases h
  next named =>
  split at h
  · cases h
  next signed =>
  split at h
  · cases h
  split at h
  · cases h
  have signed' : sha384N signer = k := by simpa using signed
  refine ⟨by rw [signed']; exact hk, by simpa using serial, ?_, ?_⟩
  · have e : ep = want := by simpa using named
    rw [show lcEpoch rec = want from e]
    simp only [want, beq_iff_eq]
    rfl
  · split at h
    · next ret =>
      cases h
      have ret' : lcOp rec = 3 := eq_of_beq ret
      simp [lcWrites, ret']
    · next ret =>
      cases h
      have ret' : lcOp rec ≠ 3 := fun e => ret (beq_iff_eq.2 e)
      rw [lcWrites, if_neg ret']
      simp only [beq_iff_eq]
      rfl

/-- It writes no owner's hash but its own, of its epoch. -/
theorem LcPasses.hash {lc : LifeCycle} {epoch : Nat} {o o' : Otp} {rec : Bytes} (h : LcPasses lc epoch o rec o') {k : Nat}
    (other : k ≠ lcEpoch rec) : tget o'.ownerHash k = tget o.ownerHash k := by
  rw [h.writes, lcWrites]
  split
  · rfl
  · split
    · exact tget_tset_ne _ _ other
    · exact tget_tset_ne _ _ other

/-- A CLAIM that passes in VENDOR carries the hash of its signer, and writes it for epoch 0. -/
theorem LcPasses.claim {epoch : Nat} {o o' : Otp} {rec : Bytes} (h : LcPasses .vendor epoch o rec o') (op : lcOp rec = 1) :
    o' = { o with lcOwner := true, ownerHash := tset o.ownerHash 0 (lcHash rec, true) } ∧
    sha384N ((rec.drop 64).take 96) = lcHash rec := by
  have signer := h.signer
  have named := h.named
  have writes := h.writes
  rw [lcSigner, op, beq_self_eq_true, if_pos rfl, Option.some.injEq] at signer
  rw [op, if_pos rfl] at named
  rw [lcWrites, named, op, if_neg (by decide), if_pos rfl] at writes
  exact ⟨writes, signer.symm⟩

/-! The end of a command. -/

theorem inputWords_lcCmd : InputWords .VLT_LC_CMD 64 where
  apart := by decide
  still := fun i h => by simp [pmcKey, Reg.key, Reg.row]; omega

/-- The vault when a life-cycle command has ended. -/
def Vault.lcEnded (v : Vault) (res : Nat) : Vault := { v with lcRec := [], lcBusy := false, lcRes := res }

/-- The end of a life-cycle command. -/
def Dev.lcEnd (d : Dev) (res : Nat) : Dev := d.ending (d.vault.lcEnded res) .VLT_LC_CMD 64

theorem Dev.lcRun_idle {d : Dev} (idle : d.vault.lcBusy = false) (x : OtpEnd) : d.lcRun x = d := by
  simp [Dev.lcRun, Dev.when, idle]

theorem Dev.lcRun_busy {d : Dev} (busy : d.vault.lcBusy = true) (x : OtpEnd) : d.lcRun x = d.lcCommand x := by
  simp [Dev.lcRun, Dev.when, busy]

/-- After a transition further commands are refused. -/
theorem Dev.lcCommand_reset {d : Dev} (reset : d.vault.resetReq = true) (x : OtpEnd) : d.lcCommand x = d.lcEnd 4 := by
  unfold Dev.lcCommand
  rw [if_pos reset]
  rfl

/-- What the record of the command under way comes to. -/
def Dev.lcResult (d : Dev) : Sum Nat Otp := lcCheck d.vault.lc d.vault.epoch d.board.otp d.vault.lcRec

/-- The OTP as far as it was written when its writes did not all end. -/
def Dev.lcTried (d : Dev) (o : Otp) (x : OtpEnd) : Dev := d.lcPart d.board.otp o (lcEpoch d.vault.lcRec) x

/-- How a command goes on whose record passes, by what becomes of its OTP writes. -/
def Dev.lcCarry (d : Dev) (o : Otp) (x : OtpEnd) : Dev :=
  match x with
  | .done => (d.lcComplete o).lcEnd 1
  | .hashFails | .fuseFails => ((d.lcTried o x).raise 14).lcEnd 7
  | .hashCut | .fuseCut => d.lcTried o x

/-- A record that fails a check ends the command with its result. -/
theorem Dev.lcCommand_refused {d : Dev} {r : Nat} (calm : d.vault.resetReq = false) (fails : d.lcResult = .inl r) (x : OtpEnd) :
    d.lcCommand x = d.lcEnd r := by
  unfold Dev.lcResult at fails
  unfold Dev.lcCommand
  rw [if_neg (by simp [calm]), fails]
  cases x <;> rfl

/-- A record that passes is carried out. -/
theorem Dev.lcCommand_carried {d : Dev} {o : Otp} (calm : d.vault.resetReq = false) (passes : d.lcResult = .inr o) (x : OtpEnd) :
    d.lcCommand x = d.lcCarry o x := by
  unfold Dev.lcResult at passes
  unfold Dev.lcCommand
  rw [if_neg (by simp [calm]), passes]
  cases x <;> rfl

/-! A transition that is made. -/

theorem tget_map {α : Type} (f : α → α) (t : Tab α) (i : Nat) : tget (t.map fun e => (e.1, f e.2)) i = (tget t i).map f := by
  induction t with
  | nil => rfl
  | cons e r ih =>
    obtain ⟨k, v⟩ := e
    by_cases hk : k = i
    · simp [tget, hk]
    · simpa [tget, hk] using ih

/-- A coach whose slots and probe are cleared. -/
def keylessCoach (x : CoachDyn) : CoachDyn := { x with slotA := none, slotB := none, probe := false, jump := none }

/-- Slots that a running sweep need not rewrite: every one that it has not reached is cleared. -/
def Dev.lcRemasked (d : Dev) : List Nat :=
  if d.vault.sweep then (List.range 131072).drop d.vault.sweepPos else d.coach.remasked

/-- The device without keys, with a reset asked for (R251). -/
def Dev.lcMoved (d : Dev) (o : Otp) : Dev :=
  { d with
    board := { d.board with otp := o }
    coach := ⟨d.coach.dyn.map fun e => (e.1, keylessCoach e.2), [], d.lcRemasked⟩
    vault := { d.vault with kek := [], ck := [], drvDone := none, resetReq := true } }

theorem Dev.lcComplete_moved (d : Dev) (o : Otp) : d.lcComplete o = (d.lcMoved o).irq .VLT_INT_STAT 9 := rfl

theorem Dev.lcMoved_keeps (d : Dev) (o : Otp) : Dev.Keeps [.vault, .coach, .board] [] d (d.lcMoved o) := by
  refine ⟨fun p hp => ?_, fun _ _ _ => rfl⟩
  cases p <;> simp_all [Part.same, Dev.lcMoved]

theorem Dev.slotAt_lcMoved (d : Dev) (o : Otp) (i : Nat) : (d.lcMoved o).slotAt i = none := by
  have co : (d.lcMoved o).co (i / 2) = ((tget d.coach.dyn (i / 2)).map keylessCoach).getD .init :=
    congrArg (Option.getD · CoachDyn.init) (tget_map keylessCoach d.coach.dyn (i / 2))
  rw [Dev.slotAt, co]
  cases tget d.coach.dyn (i / 2) <;> simp [CoachDyn.init, keylessCoach]

/-! Writes that did not all end. -/

/-- The device whose OTP holds other owner's hashes, after n free values in all. -/
def Dev.rehashed (d : Dev) (h : Tab (BitVec 384 × Bool)) (n : Nat) : Dev :=
  { d with fresh := n, board := { d.board with otp := { d.board.otp with ownerHash := h } } }

theorem Dev.rehashed_keeps (d : Dev) (h : Tab (BitVec 384 × Bool)) (n : Nat) : Dev.Keeps [.board] [] d (d.rehashed h n) :=
  ((d.fresh_keeps n).mono (by simp) (by simp)).trans (Dev.board_keeps _ _)

/-- An owner's hash is written by an OTP write of its own: the fuse comes after it (R250). -/
def hashEnded (x : OtpEnd) : Bool := x == .fuseFails || x == .fuseCut

/-- What was tried left the fuses alone; the hash of the record's epoch is as the record has it when its own write had ended, and every
other hash stands. -/
theorem Dev.lcTried_rehashed {d : Dev} {o : Otp} (passes : d.lcResult = .inr o) {x : OtpEnd} (cut : x ≠ .done) :
    ∃ h n, d.lcTried o x = d.rehashed h n ∧ (hashEnded x = true → h = o.ownerHash) ∧
      ∀ k, k ≠ lcEpoch d.vault.lcRec → tget h k = tget d.board.otp.ownerHash k := by
  have stands : ∀ k, k ≠ lcEpoch d.vault.lcRec → tget o.ownerHash k = tget d.board.otp.ownerHash k :=
    fun k other => (lcCheck_passes passes).hash other
  unfold Dev.lcTried Dev.lcPart
  extract_lets inHash drawn
  split
  · next within =>
    refine ⟨_, _, rfl, fun after => ?_, fun k other => tget_tset_ne _ _ other⟩
    cases x <;> simp_all [inHash, hashEnded]
  · exact ⟨_, d.fresh, rfl, fun _ => rfl, stands⟩

/-! The commands. -/

/-- LC_CLAIM, LC_TRANSFER and LC_RETURN: the record names the operation. -/
def lcCommands (x : OtpEnd) (c : Instr) : Prop := c = .lcClaim x ∨ c = .lcTransfer x ∨ c = .lcReturn x

theorem exec_lcCommand {c : Instr} {x : OtpEnd} (h : lcCommands x c) (s : State) : exec c s = onDev s fun d => d.lcRun x := by
  rcases h with rfl | rfl | rfl <;> rfl

/-- A command that has ended shows its result and OP_DONE, and its record is cleared. -/
structure Dev.LcShows (d : Dev) (res : Nat) : Prop where
  busy  : d.vault.lcBusy = false
  res   : d.vault.lcRes = res
  input : ∀ i, i < 64 → d.rd .VLT_LC_CMD [i] = 0
  shown : d.flag .VLT_INT_STAT [] 5 = true

theorem Dev.Ends.lcShows {e d : Dev} {v : Vault} {res : Nat} (h : e.Ends (v.lcEnded res) .VLT_LC_CMD 64 d) : d.LcShows res where
  busy := by rw [h.vault]; rfl
  res := by rw [h.vault]; rfl
  input := h.input
  shown := Dev.Sets.flag (i := 5) h.shown

/-- A command that is refused. -/
theorem State.Ready.lcRefused {s : State} {c : Instr} {x : OtpEnd} {r : Nat} (ready : s.Ready) (hc : lcCommands x c)
    (effect : s.start.lcRun x = s.start.lcEnd r) : s.Runs c fun d =>
      d.LcShows r ∧ d.board = s.dev.board ∧ d.vault = s.dev.vault.lcEnded r ∧ Dev.Keeps [.vault] (endKeys .VLT_LC_CMD 64) s.dev d := by
  have same : Dev.Keeps [] [] s.start s.start := .refl _ _ _
  refine (ready.ends (exec_lcCommand hc s) inputWords_lcCmd effect same (same.sameConds (by simp)) (by decide) (by decide)).imp
    fun d ⟨ends, frame⟩ => ⟨ends.lcShows, frame.board (by decide), ends.vault, frame.mono (by simp) (by simp)⟩

/-- A transition that is made. -/
theorem State.Ready.lcMade {s : State} {c : Instr} {o : Otp} (ready : s.Ready) (hc : lcCommands .done c)
    (effect : s.start.lcRun .done = (s.start.lcComplete o).lcEnd 1) : s.Runs c fun d =>
      d.LcShows 1 ∧ d.board = { s.dev.board with otp := o } ∧ d.vault = (s.start.lcMoved o).vault.lcEnded 1 ∧
      (∀ a, d.slotAt a = none) ∧ d.coach.probe = [] ∧ d.flag .VLT_INT_STAT [] 9 = true ∧
      Dev.Keeps [.vault, .coach, .board] (endKeys .VLT_LC_CMD 64) s.dev d := by
  rw [Dev.lcComplete_moved] at effect
  have moved := s.start.lcMoved_keeps o
  have shows := (s.start.lcMoved o).irq_keeps .VLT_INT_STAT 9 []
  have before : Dev.Keeps [.vault, .coach, .board] [Reg.key .VLT_INT_STAT] s.start ((s.start.lcMoved o).irq .VLT_INT_STAT 9) :=
    (moved.mono (by simp) (by simp)).trans (shows.mono (by simp) (by simp))
  refine (ready.ends (exec_lcCommand hc s) inputWords_lcCmd effect before (before.sameConds (by decide)) (by decide) (by decide)).imp
    fun d ⟨ends, frame⟩ => ?_
  have coach : d.coach = (s.start.lcMoved o).coach := (ends.keeps.coach (by decide)).trans (shows.coach (by simp))
  have board : d.board = (s.start.lcMoved o).board := (ends.keeps.board (by decide)).trans (shows.board (by simp))
  refine ⟨ends.lcShows, board, ends.vault, fun a => ?_, by rw [coach]; rfl, ?_,
    frame.mono (by simp) (by simp +contextual [endKeys, or_imp])⟩
  · refine Eq.trans ?_ (s.start.slotAt_lcMoved o a)
    rw [Dev.slotAt, Dev.slotAt, Dev.co, Dev.co, coach]
  · exact ends.shown.flag_of (Dev.sets_irq _ .VLT_INT_STAT [] (i := 9) (by decide)).flag

/-- The OTP `b` that an attempt to write leaves: the fuses and every hash of another epoch as in `old`, and, when the hash's own write
had ended, the hashes of `o`. -/
structure NoFuse (ep : Nat) (old o : Otp) (ended : Bool) (b : Otp) : Prop where
  owner  : b.lcOwner = old.lcOwner
  ret    : b.lcReturn = old.lcReturn
  epochs : b.epochs = old.epochs
  serial : b.serial = old.serial
  hash   : ended = true → b.ownerHash = o.ownerHash
  other  : ∀ k, k ≠ ep → tget b.ownerHash k = tget old.ownerHash k

/-- A write that the OTP does not take ends the command with OTP_FAIL, and F014 is reported. -/
theorem State.Ready.lcFails {s : State} {c : Instr} {x : OtpEnd} {o : Otp} (ready : s.Ready) (hc : lcCommands x c)
    (passes : s.start.lcResult = .inr o) (cut : x ≠ .done) (hears : s.dev.hears 14)
    (effect : s.start.lcRun x = ((s.start.lcTried o x).raise 14).lcEnd 7) : s.Runs c fun d =>
      d.LcShows 7 ∧ NoFuse (lcEpoch s.dev.vault.lcRec) s.dev.board.otp o (hashEnded x) d.board.otp ∧
      d.vault = s.dev.vault.lcEnded 7 ∧ Dev.Reports s.dev d 14 ∧
      Dev.Keeps (.vault :: .board :: eventParts) (endKeys .VLT_LC_CMD 64 ++ eventKeys 14) s.dev d := by
  obtain ⟨h, n, form, hash, other⟩ := Dev.lcTried_rehashed passes cut
  rw [form] at effect
  have burnt := s.start.rehashed_keeps h n
  have raised := (s.start.rehashed h n).raise_keeps (s := 14) (by decide)
  have before : Dev.Keeps (.board :: eventParts) (eventKeys 14) s.start ((s.start.rehashed h n).raise 14) :=
    (burnt.mono (by simp) (by simp)).trans (raised.mono (by simp +contextual) (fun _ h => h))
  have conds := (burnt.sameConds (by decide)).trans (Dev.raise_sameConds (s.start.rehashed h n) (s := 14) (by decide))
  refine (ready.ends (exec_lcCommand hc s) inputWords_lcCmd effect before conds (by decide) (by decide)).imp
    fun d ⟨ends, frame⟩ => ?_
  have board : d.board = (s.start.rehashed h n).board := (ends.keeps.board (by decide)).trans (raised.board (by decide))
  obtain ⟨pend, counts⟩ := Dev.raise_reports (d := s.start.rehashed h n) (s := 14) hears (by decide) (by decide)
  refine ⟨ends.lcShows, ?_, ?_, ⟨?_, ?_⟩, frame⟩
  · rw [board]
    exact ⟨rfl, rfl, rfl, rfl, hash, other⟩
  · rw [ends.vault, raised.vault (by decide)]
    rfl
  · rw [ends.keeps.flag 31 (by decide) (by unfold pmcKey; decide), pend]
  · rw [Dev.Counts, ends.keeps.rd (by decide) (by unfold pmcKey; decide), counts]
    rfl

/-- Power that fails in a write leaves the command under way. -/
theorem State.Ready.lcCut {s : State} {c : Instr} {x : OtpEnd} {o : Otp} (ready : s.Ready) (hc : lcCommands x c)
    (passes : s.start.lcResult = .inr o) (cut : x ≠ .done) (effect : s.start.lcRun x = s.start.lcTried o x) : s.Runs c fun d =>
      d.vault = s.dev.vault ∧ NoFuse (lcEpoch s.dev.vault.lcRec) s.dev.board.otp o (hashEnded x) d.board.otp ∧
      Dev.Keeps [.board] [] s.dev d := by
  obtain ⟨h, n, form, hash, other⟩ := Dev.lcTried_rehashed passes cut
  rw [form] at effect
  have keeps : Dev.Keeps [.board] [] s.start (s.start.lcRun x) := by
    rw [effect]
    exact s.start.rehashed_keeps h n
  refine ready.runs (exec_lcCommand hc s) keeps (keeps.sameConds (by decide)) (by simp) (by simp) fun d rest _ frame =>
    ⟨frame.vault (by decide), ?_, frame⟩
  rw [rest.board (by simp), effect]
  exact ⟨rfl, rfl, rfl, rfl, hash, other⟩

/-- Settles O51: a command ends by the check of its record, or carries it out as far as its OTP writes go. -/
theorem lifeCycleMovesOrRefuses : Obligations.LifeCycleMovesOrRefuses := by
  unfold Obligations.LifeCycleMovesOrRefuses
  intro s ready v old rec_ words ends noFuse
  refine ⟨fun x c hc => ⟨fun idle => ?_, fun busy reset => ?_, fun busy calm hears => ?_⟩, fun vendor op => ?_⟩
  · exact ready.runs_idle (exec_lcCommand hc s) (Dev.lcRun_idle (d := s.start) idle x)
  · have effect := (Dev.lcRun_busy (d := s.start) busy x).trans (Dev.lcCommand_reset (d := s.start) reset x)
    refine (ready.lcRefused hc effect).imp fun d ⟨shows, board, vault, frame⟩ => ?_
    exact ⟨⟨shows.busy, shows.res, shows.input, shows.shown⟩, board, by rw [vault]; rfl, frame⟩
  · cases result : lcCheck v.lc v.epoch old rec_ with
    | inl r =>
      have effect := (Dev.lcRun_busy (d := s.start) busy x).trans (Dev.lcCommand_refused (d := s.start) calm result x)
      refine (ready.lcRefused hc effect).imp fun d ⟨shows, board, vault, frame⟩ => ?_
      exact ⟨⟨shows.busy, shows.res, shows.input, shows.shown⟩, board, by rw [vault]; rfl, by rw [vault]; exact calm, frame⟩
    | inr o =>
      have passes : s.start.lcResult = .inr o := result
      have effect := (Dev.lcRun_busy (d := s.start) busy x).trans (Dev.lcCommand_carried (d := s.start) calm passes x)
      cases x with
      | done =>
        refine (ready.lcMade hc effect).imp fun d ⟨shows, board, vault, slots, probe, reset, frame⟩ => ?_
        refine ⟨⟨shows.busy, shows.res, shows.input, shows.shown⟩, board, ?_, ?_, ?_, slots, probe, ?_, reset, frame⟩ <;>
          (rw [vault]; rfl)
      | hashFails =>
        refine (ready.lcFails hc passes (by decide) (hears (.inl rfl)) effect).imp fun d ⟨shows, otp, vault, reports, frame⟩ => ?_
        exact ⟨⟨shows.busy, shows.res, shows.input, shows.shown⟩,
          ⟨otp.owner, otp.ret, otp.epochs, otp.serial, otp.hash, otp.other⟩, by rw [vault]; rfl, reports, frame⟩
      | fuseFails =>
        refine (ready.lcFails hc passes (by decide) (hears (.inr rfl)) effect).imp fun d ⟨shows, otp, vault, reports, frame⟩ => ?_
        exact ⟨⟨shows.busy, shows.res, shows.input, shows.shown⟩,
          ⟨otp.owner, otp.ret, otp.epochs, otp.serial, otp.hash, otp.other⟩, by rw [vault]; rfl, reports, frame⟩
      | hashCut =>
        refine (ready.lcCut hc passes (by decide) effect).imp fun d ⟨vault, otp, frame⟩ => ?_
        exact ⟨vault, ⟨otp.owner, otp.ret, otp.epochs, otp.serial, otp.hash, otp.other⟩, frame⟩
      | fuseCut =>
        refine (ready.lcCut hc passes (by decide) effect).imp fun d ⟨vault, otp, frame⟩ => ?_
        exact ⟨vault, ⟨otp.owner, otp.ret, otp.epochs, otp.serial, otp.hash, otp.other⟩, frame⟩
  · rw [vendor]
    split
    · trivial
    · next o passes =>
      have checked := lcCheck_passes passes
      obtain ⟨writes, signer⟩ := checked.claim op
      exact ⟨writes, signer, checked.serial⟩

end Sys2Proof.Machine
end

section
/-! SUPPORT. Classification at a beat boundary (R331, R332) and the power of its Dray (R614, R617): the state in which the aging that
O33 claims does not outlive the boundary. -/

namespace Sys2Proof.Machine

/-- Every boundary that ends one beat and starts the next is made by `Dev.boundary`. -/
theorem State.Beats.exec_beatBoundary {s : State} (beats : s.Beats) (i : BoundaryIn) :
    exec (.beatBoundary i) s = onDev s fun d => d.boundary i := by
  change execBeatBoundary i s = _
  rw [execBeatBoundary, beats.lock, Bool.not_true, Bool.and_false, Bool.false_and, if_neg Bool.false_ne_true]

/-- What such a boundary leaves of classification is what its device has when the messages of the command are still to be sent. -/
theorem State.Beats.boundary_cls {s t : State} {i : BoundaryIn} (beats : s.Beats) (ran : exec (.beatBoundary i) s = .next t) :
    t.dev.cls = (s.start.boundary i).cls := by
  rw [beats.exec_beatBoundary, onDev_awake beats.awake, Host.Outcome.next.injEq] at ran
  rw [← ran]
  exact ((Dev.settle_keeps _).1 .cls (by decide)).symm

/-- Beat 285 of a running SOLO device, one before the aging period of the reset value of CLS_AGE visits bucket 1, whose slot 0 holds a
LEARNED position that was seen. PD05, the Outbound pipe of Dray 0, is ON with nothing to drain, and PWR_DOM_CTL(5).ON is 0. -/
def switchedOff : State :=
  { dev := { Dev.afterReset .blank 0 0 with
      clk := { Clock.reset with count := 285, run := true, pllLock := true, det := true }
      pair := { Pair.reset with state := .solo }
      cls := [(0, { ClsDray.init with pos := [(4, 3)] })]
      power := { Power.reset with dom := [(0, ⟨.on, false, 0, false⟩), (4, ⟨.on, false, 0, false⟩), (5, ⟨.on, false, 0, false⟩)] } }
    pending := [] }

theorem switchedOff_ready : switchedOff.Ready where
  awake := rfl
  settled :=
    { touch := rfl, event := rfl, cond := by decide +kernel, lost := by decide +kernel
      pend := fun v _ h => by simp [bit, show switchedOff.dev.host.pend = 0 from rfl] at h }

theorem switchedOff_beats : switchedOff.Beats where
  awake := rfl
  run := rfl
  lock := rfl
  calm := rfl
  led := by decide

/-- The arbiter's pins, at which a SOLO device stays SOLO: ARB_ROLE is high and ARB_FENCE low. -/
def soloPins : BoundaryIn := { BoundaryIn.quiet with role := true, fence := false }

/-- The boundary turns PD05 OFF, and Dray 0 loses its classification state with it (R614, R617). -/
theorem switchedOff_losesDray : (switchedOff.start.boundary soloPins).dray 0 = .init := by
  decide +kernel

/-- Refutes O33: its boundary clauses ask that the domain of the Dray's Outbound pipe is ON, and not that it is commanded ON. Where
PWR_DOM_CTL.ON is 0, as in `switchedOff`, the drained domain turns OFF at that same boundary, after the tables' step, and the Dray is
cleared (Dev.clearDray): the position that aging left idle is empty. -/
theorem not_migrationWritesTheLineItPlanned : ¬ Obligations.MigrationWritesTheLineItPlanned := by
  unfold Obligations.MigrationWritesTheLineItPlanned
  intro h
  obtain ⟨_, _, boundary⟩ := h switchedOff 0 switchedOff_ready (by decide)
  obtain ⟨_, ages, _⟩ := boundary soloPins switchedOff_beats (by decide) (by decide)
  obtain ⟨seen, _⟩ := ages 0 (by decide) (by decide) (by decide) (by decide +kernel) (by decide +kernel)
  obtain ⟨t, ran, _, idle⟩ := seen (by decide +kernel)
  have cleared : t.dev.dray 0 = .init := by
    rw [Dev.dray, switchedOff_beats.boundary_cls ran]
    exact switchedOff_losesDray
  rw [cleared] at idle
  exact absurd idle (by decide +kernel)

end Sys2Proof.Machine
end

section
/-! SUPPORT. The rise of ARB_FENCE (R403, R404, R503): the statistics word that bringing the line ports up to date counts in, which the
frame of O56 leaves out. -/

namespace Sys2Proof.Machine

/-- The device of `strayAis`, whose line port 0 sends AIS for the number 65,536 while a unit waits, with ARB_FENCE low. -/
def strayUnfenced : State :=
  { strayAis with dev := { strayAis.dev with pair := { strayAis.dev.pair with fence := false } } }

theorem strayUnfenced_ready : strayUnfenced.Ready := .of_idle rfl rfl (by decide +kernel)

/-- The device has reached CCLK 600: no CCLK passes before a command at that offset. -/
theorem strayUnfenced_at : strayUnfenced.at 600 = strayUnfenced.start := rfl

theorem exec_arbFenceRise (e : FenceEdge) (s : State) : exec (.arbFenceRise e) s = onDevAt s e.time fun d => d.fencePin e.heldNs := rfl

/-- The rise brings the port up to date before it stomps it: the unit is dropped, and counted for the number 65,536 (R174, R176). -/
theorem fenceRise_countsStray {t : State} (h : exec (.arbFenceRise ⟨600, 20⟩) strayUnfenced = .next t) :
    wordAt t.dev.words strayKey ≠ wordAt strayUnfenced.start.words strayKey := by
  rw [exec_arbFenceRise, onDevAt, onDev_awake strayUnfenced_ready.awake, Host.Outcome.next.injEq] at h
  rw [← h]
  decide +kernel

/-- The word for that number is past the words of the coaches, and belongs to no source of the Postilion. -/
theorem strayKey_not_fatal_of_source {n : Nat} (h : n < 190) : strayKey ∉ fatalKeys n := by
  intro listed
  simp only [fatalKeys, eventKeys, detKeys, packKeys, strayKey, List.mem_append, List.mem_map, List.mem_cons, List.mem_range,
    List.not_mem_nil, or_false, Reg.key, Reg.row, List.zipWith, List.sum_cons, List.sum_nil] at listed
  omega

/-- Refutes O56: the frame of its first clause fails where a line port sends AIS for a number past the 65,536 coaches, which no premise
rules out. A rise of ARB_FENCE that has stood for 20 ns brings that port up to date (R404, R503), and what it drops counts in a word that
`fatalKeys` does not list. -/
theorem not_fenceForcesOutputsAndDomainsSwitch : ¬ Obligations.FenceForcesOutputsAndDomainsSwitch := by
  unfold Obligations.FenceForcesOutputsAndDomainsSwitch
  intro h
  obtain ⟨rises, _⟩ := h strayUnfenced strayUnfenced_ready
  obtain ⟨t, ran, _, _, _, _, _, _, _, _, _, keeps⟩ :=
    rises 600 20 (Nat.le_refl 20) rfl (by unfold Dev.hears; decide)
  rw [strayUnfenced_at] at keeps
  exact fenceRise_countsStray ran (keeps.2 strayKey (strayKey_not_fatal_of_source (by decide)) (by unfold pmcKey; decide))

end Sys2Proof.Machine
end

section
/-! SUPPORT. The commands of the time bases (R451, R455, R456, R466): what a snapshot's GO, an edge at a PPS input and the edges of a PPS
output do, in the device that the command finds. -/

namespace Sys2Proof.Machine

/-! Time and pair, and the device at a CCLK. -/

theorem Dev.time_keeps (d : Dev) (x : Time) : Dev.Keeps [.time] [] d { d with time := x } := by
  refine ⟨fun p hp => ?_, fun _ _ _ => rfl⟩
  cases p <;> simp_all [Part.same]

theorem Dev.pair_keeps (d : Dev) (x : Pair) : Dev.Keeps [.pair] [] d { d with pair := x } := by
  refine ⟨fun p hp => ?_, fun _ _ _ => rfl⟩
  cases p <;> simp_all [Part.same]

theorem Dev.Keeps.time {ps : List Part} {ks : List Nat} {a b : Dev} (h : Dev.Keeps ps ks a b) (hp : Part.time ∉ ps) :
    b.time = a.time := (h.1 .time hp :).symm

theorem State.at_keeps (s : State) (t : Nat) : Dev.Keeps [.offset] [] s.dev (s.at t) :=
  (s.start_keeps.mono (by simp) (by simp)).trans (Dev.tickTo_keeps _ t)

theorem State.at_time (s : State) (t : Nat) : (s.at t).time = s.dev.time := (s.at_keeps t).time (by simp)

theorem State.at_pair (s : State) (t : Nat) : (s.at t).pair = s.dev.pair := ((s.at_keeps t).1 .pair (by simp) :).symm

theorem State.at_flag (s : State) (t : Nat) {r : Reg} {ix : List Nat} (i : Nat) (h : ¬ pmcKey (r.key ix)) :
    (s.at t).flag r ix i = s.dev.flag r ix i := (s.at_keeps t).flag i (by simp) h

theorem Dev.ppsIn_of_time {a b : Dev} (h : b.time = a.time) (i : Nat) : b.ppsIn i = a.ppsIn i := by rw [Dev.ppsIn, Dev.ppsIn, h]

theorem Dev.ppsOut_of_time {a b : Dev} (h : b.time = a.time) (o : Nat) : b.ppsOut o = a.ppsOut o := by rw [Dev.ppsOut, Dev.ppsOut, h]

@[simp] theorem Dev.ppsIn_setPpsIn_self (d : Dev) (i : Nat) (x : PpsIn) : (d.setPpsIn i x).ppsIn i = x := by
  simp [Dev.ppsIn, Dev.setPpsIn, tgetD, tget_tset_self]

theorem Dev.ppsIn_setPpsIn_ne (d : Dev) {i j : Nat} (x : PpsIn) (h : j ≠ i) : (d.setPpsIn i x).ppsIn j = d.ppsIn j := by
  simp [Dev.ppsIn, Dev.setPpsIn, tgetD, tget_tset_ne _ _ h]

@[simp] theorem Dev.ppsOut_setPpsOut_self (d : Dev) (o : Nat) (x : PpsOut) : (d.setPpsOut o x).ppsOut o = x := by
  simp [Dev.ppsOut, Dev.setPpsOut, tgetD, tget_tset_self]

theorem Dev.ppsOut_setPpsOut_ne (d : Dev) {o j : Nat} (x : PpsOut) (h : j ≠ o) : (d.setPpsOut o x).ppsOut j = d.ppsOut j := by
  simp [Dev.ppsOut, Dev.setPpsOut, tgetD, tget_tset_ne _ _ h]

theorem Dev.setPpsIn_keeps (d : Dev) (i : Nat) (x : PpsIn) : Dev.Keeps [.time] [] d (d.setPpsIn i x) := d.time_keeps _

theorem Dev.setPpsOut_keeps (d : Dev) (o : Nat) (x : PpsOut) : Dev.Keeps [.time] [] d (d.setPpsOut o x) := d.time_keeps _

/-! A snapshot is asked for. -/

/-- Writing GO to TIM_SNAP_CTL asks for a snapshot, and takes its CCLK. -/
theorem Dev.regWrite_snapCtl {d : Dev} (hot : d.host.d3hot = false) :
    d.regWrite .TIM_SNAP_CTL [] 1 = (d.pmcEvent 19 2).snapRequest.endAccess := by
  have off : dwordOf (Reg.key .TIM_SNAP_CTL) = 0x400010 := by decide
  have at_ : regAt 0x400010 = some (.TIM_SNAP_CTL, []) := by decide +kernel
  have first : d.writeFirst (Reg.key .TIM_SNAP_CTL) = d := by simp [Dev.writeFirst, off]
  have word : ∀ e : Dev, e.writeDword 0x400010 1 15 = e.snapRequest := by
    intro e
    simp [Dev.writeDword, Dev.resolve, at_, Dev.writeNow, Dev.writeRw, Dev.writeW1c, Dev.writeRws, Dev.touched, vectorOf,
      Dev.writeActs, bit, Reg.row]
  unfold Dev.regWrite Dev.hostWrite
  rw [if_neg (by simp [hot]), first, off]
  exact congrArg Dev.endAccess (word _)

theorem exec_timeSnapshot (s : State) : exec .timeSnapshot s = onDev s fun d => d.regWrite .TIM_SNAP_CTL [] 1 := rfl

theorem State.Ready.asksSnapshot {s : State} (ready : s.Ready) (hot : s.dev.host.d3hot = false) : s.Runs .timeSnapshot fun d =>
    d.time = { s.dev.time with snapReq := true } ∧ Dev.Keeps [.time, .offset] [] s.dev d := by
  have effect : s.start.regWrite .TIM_SNAP_CTL [] 1 = s.served.snapRequest.endAccess := Dev.regWrite_snapCtl hot
  have counted : Dev.Keeps [] [] s.start s.served := Dev.pmcEvent_keeps _ (b := 19) 2 none 1 (by decide)
  have asked : Dev.Keeps [.time] [] s.served s.served.snapRequest := Dev.time_keeps _ _
  have passes := s.served.snapRequest.endAccess_keeps
  have frame : Dev.Keeps [.time, .offset] [] s.start (s.start.regWrite .TIM_SNAP_CTL [] 1) := by
    rw [effect]
    exact ((counted.mono (by simp) (by simp)).trans (asked.mono (by simp) (by simp))).trans (passes.mono (by simp) (by simp))
  refine ready.runs (exec_timeSnapshot s) frame (frame.sameConds (by simp)) (by simp) (by simp) fun d rest _ whole => ⟨?_, whole⟩
  rw [rest.time (by simp), effect, passes.time (by simp)]
  change { s.served.time with snapReq := true } = _
  rw [s.served_quiet.keeps.time (by simp)]

/-! Edges at PPS inputs. -/

theorem exec_ppsInputEdge (i t phi held : Nat) (fall : Bool) (s : State) :
    exec (.ppsInputEdge i t phi held fall) s = onDevAt s t fun d => d.ppsEdge i phi held fall := rfl

/-- An edge that input i takes: enabled, of the set polarity, after 100 ns of the level before it (R451). -/
def Dev.PpsTakes (d : Dev) (i held : Nat) (fall : Bool) : Prop :=
  d.flag .TIM_PPSI_CFG [i] 31 = true ∧ d.flag .TIM_PPSI_CFG [i] 30 = fall ∧ 100 ≤ held

theorem Dev.ppsEdge_taken {d : Dev} {i phi held : Nat} {fall : Bool} (hi : i < 4) (hphi : phi < 4) (h : d.PpsTakes i held fall) :
    d.ppsEdge i phi held fall = if d.partnerState then d.ppsKeep i phi else d.ppsCapture i phi := by
  obtain ⟨en, pol, long⟩ := h
  have en' : bit (d.rd .TIM_PPSI_CFG [i]) 31 = true := en
  have pol' : bit (d.rd .TIM_PPSI_CFG [i]) 30 = fall := pol
  simp [Dev.ppsEdge, hi, en', pol', long, Nat.mod_eq_of_lt hphi]

theorem Dev.ppsEdge_ignored {d : Dev} {i held : Nat} {fall : Bool} (phi : Nat) (h : ¬ d.PpsTakes i held fall) :
    d.ppsEdge i phi held fall = d := by
  unfold Dev.ppsEdge
  refine if_neg fun c => h ?_
  simp only [Bool.and_eq_true, decide_eq_true_eq, beq_iff_eq] at c
  obtain ⟨⟨⟨_, en⟩, pol⟩, long⟩ := c
  exact ⟨en, pol, long⟩

theorem Dev.spareSources_keeps (d : Dev) (k : Nat) (b : Bytes) : Dev.Keeps [.pair] [] d (d.spareSources k b) := by
  unfold Dev.spareSources
  dsimp only
  split
  · exact .refl _ _ _
  · exact d.pair_keeps _

theorem Dev.recEvent_keeps (d : Dev) (b : Bytes) : Dev.Keeps [.pair] [] d (d.recEvent b) := by
  unfold Dev.recEvent
  split
  · exact (d.pair_keeps _).trans (Dev.spareSources_keeps _ _ b)
  · exact .refl _ _ _

/-- What input i holds once it has captured an edge in quarter phi of the CCLK under way. -/
def Dev.ppsCaptured (d : Dev) (i phi : Nat) : PpsIn :=
  { d.ppsIn i with offset := d.clk.cclk, phi := phi, beat := d.beat, caps := d.stamps d.now phi,
                   waiting := (d.ppsIn i).waiting ++ [(d.beat, d.stamps d.now phi)] }

/-- A capture is put into input i and shown, and then goes into the record. -/
theorem Dev.ppsCapture_keeps (d : Dev) (i phi : Nat) :
    Dev.Keeps [.pair] [] ((d.setPpsIn i (d.ppsCaptured i phi)).irq .TIM_INT_STAT (4 + i)) (d.ppsCapture i phi) :=
  Dev.recEvent_keeps _ _

theorem not_pmcKey_timInt : ¬ pmcKey (Reg.key .TIM_INT_STAT) := by unfold pmcKey; decide

theorem State.at_ppsTakes (s : State) (t : Nat) {i : Nat} (hi : i < 4) {held : Nat} {fall : Bool} :
    (s.at t).PpsTakes i held fall ↔ s.dev.PpsTakes i held fall := by
  have still : ¬ pmcKey (Reg.key .TIM_PPSI_CFG [i]) := by simp [pmcKey, Reg.key, Reg.row]; omega
  rw [Dev.PpsTakes, Dev.PpsTakes, s.at_flag t 31 still, s.at_flag t 30 still]

/-- A capture in a device that takes its own edges: in its place, in the place of the one before, and shown. -/
theorem State.Ready.capturesEdge {s : State} {i t phi held : Nat} {fall : Bool} (ready : s.Ready) (hi : i < 4) (hphi : phi < 4)
    (taken : s.dev.PpsTakes i held fall) (own : s.dev.pair.state ≠ .standby ∧ s.dev.pair.state ≠ .syncing) :
    s.Runs (.ppsInputEdge i t phi held fall) fun d => d.ppsIn i = (s.at t).ppsCaptured i phi ∧
      (∀ j, j ≠ i → d.ppsIn j = s.dev.ppsIn j) ∧ Dev.Sets s.dev d .TIM_INT_STAT [] (2 ^ (4 + i)) ∧
      Dev.Keeps [.time, .pair] [Reg.key .TIM_INT_STAT] (s.at t) d := by
  let e := s.at t
  let put := e.setPpsIn i (e.ppsCaptured i phi)
  have leads : e.partnerState = false := by
    unfold Dev.partnerState
    rw [s.at_pair]
    simpa using own
  have effect : e.ppsEdge i phi held fall = e.ppsCapture i phi := by
    rw [Dev.ppsEdge_taken hi hphi ((s.at_ppsTakes t hi).2 taken), leads, if_neg Bool.false_ne_true]
  have stored : Dev.Keeps [.time] [] e put := e.setPpsIn_keeps i _
  have shown : Dev.Keeps [] [Reg.key .TIM_INT_STAT] put (put.irq .TIM_INT_STAT (4 + i)) := put.irq_keeps _ _ _
  have noted := e.ppsCapture_keeps i phi
  have frame : Dev.Keeps [.time, .pair] [Reg.key .TIM_INT_STAT] e (e.ppsEdge i phi held fall) := by
    rw [effect]
    exact ((stored.mono (by simp) (by simp)).trans (shown.mono (by simp) (by simp))).trans (noted.mono (by simp) (by simp))
  refine ready.runs_at (exec_ppsInputEdge i t phi held fall s) frame (by simp) (by decide) (by decide) fun d quiet => ?_
  have quiet' : Dev.Keeps [] [] (e.ppsCapture i phi) d := effect ▸ quiet
  have time : d.time = put.time := (quiet'.time (by simp)).trans ((noted.time (by simp)).trans (shown.time (by simp)))
  refine ⟨?_, fun j hj => ?_, ?_, frame.trans (quiet.mono (by simp) (by simp))⟩
  · rw [Dev.ppsIn_of_time time, Dev.ppsIn_setPpsIn_self]
  · rw [Dev.ppsIn_of_time time, Dev.ppsIn_setPpsIn_ne _ _ hj, Dev.ppsIn_of_time (s.at_time t)]
  · have sets := put.sets_irq .TIM_INT_STAT [] (i := 4 + i) (by omega)
    unfold Dev.Sets at sets ⊢
    rw [quiet'.rd (by simp) not_pmcKey_timInt, noted.rd (by simp) not_pmcKey_timInt, sets, stored.rd (by simp) not_pmcKey_timInt,
      (s.at_keeps t).rd (by simp) not_pmcKey_timInt]

/-- An edge that a partner finds joins its own captures only. -/
theorem State.Ready.keepsEdge {s : State} {i t phi held : Nat} {fall : Bool} (ready : s.Ready) (hi : i < 4) (hphi : phi < 4)
    (taken : s.dev.PpsTakes i held fall) (partner : ¬ (s.dev.pair.state ≠ .standby ∧ s.dev.pair.state ≠ .syncing)) :
    s.Runs (.ppsInputEdge i t phi held fall) fun d =>
      d.ppsIn i = { s.dev.ppsIn i with
        kept := (s.dev.ppsIn i).kept ++ [((s.at t).beat, (s.at t).clk.cclk, phi, (s.at t).stamps (s.at t).now phi)] } ∧
      (∀ j, j ≠ i → d.ppsIn j = s.dev.ppsIn j) ∧ Dev.Keeps [.time] [] (s.at t) d := by
  let e := s.at t
  have follows : e.partnerState = true := by
    unfold Dev.partnerState
    rw [s.at_pair]
    simpa [Classical.or_iff_not_imp_left] using partner
  have effect : e.ppsEdge i phi held fall = e.ppsKeep i phi := by
    rw [Dev.ppsEdge_taken hi hphi ((s.at_ppsTakes t hi).2 taken), follows, if_pos rfl]
  have frame : Dev.Keeps [.time] [] e (e.ppsEdge i phi held fall) := by
    rw [effect]
    exact e.setPpsIn_keeps i _
  refine ready.runs_at (exec_ppsInputEdge i t phi held fall s) frame (by simp) (by simp) (by simp) fun d quiet => ?_
  have time : d.time = (e.ppsKeep i phi).time := effect ▸ quiet.time (by simp)
  have same := fun j => Dev.ppsIn_of_time (s.at_time t) j
  refine ⟨?_, fun j hj => ?_, frame.trans (quiet.mono (by simp) (by simp))⟩
  · rw [Dev.ppsIn_of_time time, Dev.ppsKeep, Dev.ppsIn_setPpsIn_self, ← same i]
  · rw [Dev.ppsIn_of_time time, Dev.ppsKeep, Dev.ppsIn_setPpsIn_ne _ _ hj, same j]

/-- An edge that the input does not take changes nothing. -/
theorem State.Ready.ignoresEdge {s : State} {i t phi held : Nat} {fall : Bool} (ready : s.Ready) (hi : i < 4)
    (ignored : ¬ s.dev.PpsTakes i held fall) :
    s.Runs (.ppsInputEdge i t phi held fall) fun d => Dev.Keeps [] [] (s.at t) d := by
  have idle : (s.at t).ppsEdge i phi held fall = s.at t := Dev.ppsEdge_ignored phi fun h => ignored ((s.at_ppsTakes t hi).1 h)
  refine ready.runs_at (exec_ppsInputEdge i t phi held fall s) (ps := []) (ks := []) ?_ (by simp) (by simp) (by simp) fun d quiet => ?_
  · rw [idle]
    exact .refl _ _ _
  · exact idle ▸ quiet

/-! PPS outputs. -/

theorem exec_ppsOutputRise (o t : Nat) (s : State) :
    exec (.ppsOutputRise o t) s = onDevAt s t fun d => d.when (decide (o < 4) && !d.outputsOff) fun d => d.ppsRise o := rfl

theorem exec_ppsOutputFall (o t : Nat) (s : State) :
    exec (.ppsOutputFall o t) s = onDevAt s t fun d => d.when (decide (o < 4)) fun d => d.ppsFall o := rfl

/-- A command that puts output o in the device it finds, and does nothing else. -/
theorem State.Ready.putsOutput {s : State} {c : Instr} {o t : Nat} {f : Dev → Dev} {x : PpsOut} (ready : s.Ready)
    (he : exec c s = onDevAt s t f) (effect : f (s.at t) = (s.at t).setPpsOut o x) : s.Runs c fun d =>
      d.ppsOut o = x ∧ (∀ j, j ≠ o → d.ppsOut j = s.dev.ppsOut j) ∧ Dev.Keeps [.time] [] (s.at t) d := by
  have frame : Dev.Keeps [.time] [] (s.at t) (f (s.at t)) := by
    rw [effect]
    exact Dev.setPpsOut_keeps _ o x
  refine ready.runs_at he frame (by simp) (by simp) (by simp) fun d quiet => ?_
  have time : d.time = ((s.at t).setPpsOut o x).time := effect ▸ quiet.time (by simp)
  refine ⟨?_, fun j hj => ?_, frame.trans (quiet.mono (by simp) (by simp))⟩
  · rw [Dev.ppsOut_of_time time, Dev.ppsOut_setPpsOut_self]
  · rw [Dev.ppsOut_of_time time, Dev.ppsOut_setPpsOut_ne _ _ hj, Dev.ppsOut_of_time (s.at_time t)]

/-- An output rises at a second that is later than that of its last edge, where nothing holds it low (R455, R456). -/
structure Dev.PpsRises (d : Dev) (o sec : Nat) : Prop where
  reached : d.ppsSecond o = some sec
  enabled : d.flag .TIM_PPSO_CFG [o] 31 = true
  run     : d.clk.run = true
  counts  : (d.tb (d.ppsoTb o)).en = true
  loud    : d.squelched o = false
  later   : ∀ l, (d.ppsOut o).lastSec = some l → l < sec

theorem Dev.ppsRise_rises {d : Dev} {o sec : Nat} (ho : o < 4) (h : d.PpsRises o sec) : d.ppsRise o =
    d.setPpsOut o { level := true, lastSec := some sec, left := d.ppsRest o sec + d.fld .TIM_PPSO_CFG [o] 19 0 * 1000 * 2 ^ 40,
                    since := d.now, phi := d.ppsRest o sec / 2 ^ 38 } := by
  unfold Dev.ppsRise
  rw [h.reached]
  refine if_pos ?_
  have later := h.later
  simp only [ho, h.enabled, h.run, h.counts, h.loud, decide_true, Bool.not_false, Bool.and_true, Bool.true_and]
  cases last : (d.ppsOut o).lastSec with
  | none => rfl
  | some l => exact decide_eq_true (later l last)

theorem Dev.ppsFall_falls {d : Dev} {o : Nat} (high : (d.ppsOut o).level = true) (past : (d.ppsOut o).left < d.ppsRun o (d.now + 1)) :
    ∃ phi, d.ppsFall o = d.setPpsOut o { d.ppsOut o with level := false, phi := phi } :=
  ⟨((d.ppsOut o).left - d.ppsRun o d.now) / 2 ^ 38, by simp [Dev.ppsFall, high, past]⟩

end Sys2Proof.Machine
end

section
/-! SUPPORT. What follows the snapshot at a boundary (R40, R466): everything after it, up to the end of the command, leaves the time bases
and their snapshot as they are, and leaves TIM_INT_STAT.SNAP shown. -/

namespace Sys2Proof.Machine

/-- Time is the same in both devices, and a snapshot shown in the first is shown in the second. -/
structure Dev.SnapStands (a b : Dev) : Prop where
  time  : b.time = a.time
  shown : a.flag .TIM_INT_STAT [] 11 = true → b.flag .TIM_INT_STAT [] 11 = true

theorem Dev.SnapStands.refl (a : Dev) : a.SnapStands a := ⟨rfl, id⟩

theorem Dev.SnapStands.trans {a b c : Dev} (h : a.SnapStands b) (h' : b.SnapStands c) : a.SnapStands c :=
  ⟨h'.time.trans h.time, h'.shown ∘ h.shown⟩

/-- A step from a device that has the same time and words. -/
theorem Dev.SnapStands.since {a b c : Dev} (h : b.SnapStands c) (time : b.time = a.time) (words : b.words = a.words) : a.SnapStands c :=
  Dev.SnapStands.trans ⟨time, fun shown => by rw [Dev.flag, Dev.rd, words]; exact shown⟩ h

/-- A step to a device that has the same time and words. -/
theorem Dev.SnapStands.until {a b c : Dev} (h : a.SnapStands b) (time : c.time = b.time) (words : c.words = b.words) : a.SnapStands c :=
  h.trans ((Dev.SnapStands.refl c).since time words)

theorem Dev.SnapStands.ite {a b c : Dev} {p : Prop} [Decidable p] (h : p → a.SnapStands b) (h' : ¬ p → a.SnapStands c) :
    a.SnapStands (if p then b else c) := by
  split
  · next hp => exact h hp
  · next hp => exact h' hp

/-- A step that is made or left out. -/
theorem Dev.SnapStands.opt {a b : Dev} {p : Prop} [Decidable p] (h : a.SnapStands b) : a.SnapStands (if p then b else a) :=
  .ite (fun _ => h) fun _ => .refl a

theorem Dev.SnapStands.foldl_mem {α : Type} {f : Dev → α → Dev} (l : List α) (hf : ∀ (d : Dev), ∀ x ∈ l, d.SnapStands (f d x))
    (d : Dev) : d.SnapStands (l.foldl f d) := by
  induction l generalizing d with
  | nil => exact .refl d
  | cons x r ih => exact (hf d x (List.mem_cons_self ..)).trans (ih (fun d y hy => hf d y (List.mem_cons_of_mem _ hy)) _)

theorem Dev.SnapStands.foldl {α : Type} {f : Dev → α → Dev} (hf : ∀ (d : Dev) x, d.SnapStands (f d x)) (l : List α) (d : Dev) :
    d.SnapStands (l.foldl f d) := .foldl_mem l (fun d x _ => hf d x) d

theorem Dev.SnapStands.each {n : Nat} {f : Dev → Nat → Dev} (hf : ∀ (d : Dev) i, i < n → d.SnapStands (f d i)) (d : Dev) :
    d.SnapStands (forEach n d f) := .foldl_mem _ (fun d i hi => hf d i (List.mem_range.1 hi)) d

/-! Frames that are known already. -/

theorem Dev.SnapStands.of_word {a b : Dev} (time : b.time = a.time)
    (word : wordAt b.words (Reg.key .TIM_INT_STAT) = wordAt a.words (Reg.key .TIM_INT_STAT)) : a.SnapStands b :=
  ⟨time, fun h => by rw [Dev.flag, Dev.rd, word]; exact h⟩

theorem Dev.Keeps.snapStands {ps : List Part} {ks : List Nat} {a b : Dev} (h : Dev.Keeps ps ks a b) (hp : Part.time ∉ ps)
    (hk : Reg.key .TIM_INT_STAT ∉ ks) : a.SnapStands b :=
  .of_word (h.time hp) (h.2 _ hk not_pmcKey_timInt)

theorem Dev.Quiet.snapStands {a b : Dev} (h : a.Quiet b) : a.SnapStands b := h.keeps.snapStands (by simp) (by simp)

theorem Dev.Packed.snapStands {a b : Dev} (h : a.Packed b) : a.SnapStands b :=
  .of_word (congrArg Dev.time h.rest :).symm <|
    h.word _ (fun hp => by have := packedKey_bounds hp; simp [Reg.key, Reg.row] at this) not_pmcKey_timInt

/-! Words. -/

/-- Status bits are only set. -/
theorem Dev.setStat_snapStands (d : Dev) (r : Reg) (ix : List Nat) (m : Nat) : d.SnapStands (d.setStat r ix m) := by
  by_cases h : Reg.key .TIM_INT_STAT = r.key ix
  · refine ⟨rfl, fun shown => ?_⟩
    have shown' : bit (wordAt d.words (Reg.key .TIM_INT_STAT)) 11 = true := shown
    change bit (wordAt (setWord d.words (r.key ix) (wordAt d.words (r.key ix) ||| m)) (Reg.key .TIM_INT_STAT)) 11 = true
    rw [← h, wordAt_setWord_self]
    simp only [bit] at shown' ⊢
    rw [Nat.testBit_mod_two_pow, Nat.testBit_or, shown']
    rfl
  · exact (d.setStat_keeps r ix m).snapStands (by simp) (by simpa using h)

theorem Dev.irq_snapStands (d : Dev) (r : Reg) (i : Nat) (ix : List Nat) : d.SnapStands (d.irq r i ix) := d.setStat_snapStands r ix _

theorem Dev.count_snapStands (d : Dev) {r : Reg} {ix : List Nat} (n : Nat) (h : Reg.key .TIM_INT_STAT ≠ r.key ix) :
    d.SnapStands (d.count r ix n) := (d.count_keeps r ix n).snapStands (by simp) (by simpa using h)

theorem Dev.wr_snapStands (d : Dev) {r : Reg} {ix : List Nat} (v : Nat) (h : Reg.key .TIM_INT_STAT ≠ r.key ix) :
    d.SnapStands (d.wr r ix v) := (d.wr_keeps r ix v).snapStands (by simp) (by simpa using h)

theorem Dev.pmcEvent_snapStands (d : Dev) {b : Nat} (code : Nat) (slot : Option Nat) (n : Nat) (hb : b < 20) :
    d.SnapStands (d.pmcEvent b code slot n) := (d.pmcEvent_quiet code slot n hb).snapStands

/-- A register whose words all lie above the time block's first ones is none of them. -/
theorem timInt_ne_of_base {r : Reg} (ix : List Nat) (h : 0x400004 < r.row.base) : Reg.key .TIM_INT_STAT ≠ r.key ix := by
  have low : Reg.key .TIM_INT_STAT = 0x400004 := by decide
  rw [low, Reg.key]
  omega

/-- The counters of a port lie in the block of its Dray. -/
theorem Dev.cnt_snapStands (d : Dev) (p c n : Nat) (hc : c < 32) : d.SnapStands (d.cnt p c n) := by
  unfold Dev.cnt
  refine .ite (fun h => ?_) fun _ => .refl d
  have hp : p < 64 := by simp [Dev.exists_] at h; omega
  have dray : drayOf p < 4 := by simp [drayOf, portNo]; omega
  have ix : cntIx p < 16 := by simp [cntIx, portIx]; split <;> omega
  refine (d.wr_snapStands _ ?_).trans (Dev.wr_snapStands _ _ ?_) <;> simp [Reg.key, Reg.row] <;> omega

theorem Dev.rxCount_snapStands (d : Dev) (p len : Nat) : d.SnapStands (d.rxCount p len) :=
  (d.cnt_snapStands p 0 1 (by decide)).trans (Dev.cnt_snapStands _ p 1 len (by decide))

/-! Events. -/

theorem timInt_ne_stomp (p : Nat) : Reg.key .TIM_INT_STAT ≠ Reg.key .LOFT_PORT_STOMP [p] := by simp [Reg.key, Reg.row]; omega

theorem Dev.stompAt_snapStands (d : Dev) (p h c : Nat) : d.SnapStands (d.stompAt p h c) := by
  unfold Dev.stompAt
  split
  · exact .refl d
  · exact .ite (fun _ => .refl d) fun _ =>
      (Dev.count_snapStands _ 1 (timInt_ne_stomp p)).since rfl rfl

theorem Dev.stomp_snapStands (d : Dev) (p t : Nat) : d.SnapStands (d.stomp p t) := by
  unfold Dev.stomp
  split
  · exact .refl d
  · exact d.stompAt_snapStands p _ _

theorem Dev.stompSuperframe_snapStands (d : Dev) (p t : Nat) : d.SnapStands (d.stompSuperframe p t) :=
  .opt ((Dev.count_snapStands _ 1 (timInt_ne_stomp p)).since rfl rfl)

theorem Dev.stompAll_snapStands (d : Dev) (t : Nat) : d.SnapStands (d.stompAll t) :=
  (Dev.SnapStands.each (fun d _ hn => (d.packTo_packed hn t).snapStands) d).trans <|
    .each (fun d p _ => (d.stomp_snapStands p t).trans (Dev.stompSuperframe_snapStands _ p t)) _

theorem Dev.bootStop_snapStands (d : Dev) (code : Nat) : d.SnapStands (d.bootStop code) := by
  unfold Dev.bootStop
  exact .ite (fun _ => .refl d) fun _ => ⟨rfl, id⟩

theorem Dev.fatalStop_snapStands (d : Dev) (s : Nat) : d.SnapStands (d.fatalStop s) := by
  have stops : d.SnapStands (if d.halt then d else d.stompAll d.now) := .ite (fun _ => .refl d) fun _ => d.stompAll_snapStands _
  have counts : ∀ e : Dev, e.SnapStands (if e.pst.alert || e.pst.fatal then e else e.pmcEvent 15 3) := fun e =>
    .ite (fun _ => .refl e) fun _ => e.pmcEvent_snapStands 3 none 1 (by decide)
  unfold Dev.fatalStop
  extract_lets e f
  exact (stops.trans (counts e)).trans <| (Dev.SnapStands.opt (Dev.bootStop_snapStands _ _)).since rfl rfl

theorem Dev.react_snapStands (d : Dev) (s set : Nat) (fatal : Bool) : d.SnapStands (d.react s set fatal) :=
  (d.react_keeps s set fatal).snapStands (by decide) (by decide)

theorem Dev.whipFault_snapStands (d : Dev) (s : Nat) (hi fatal : Bool) : d.SnapStands (d.whipFault s hi fatal) :=
  (d.whipFault_keeps s hi fatal).snapStands (by decide) (by simp)

theorem Dev.classify_snapStands (d : Dev) (s sev : Nat) : d.SnapStands (d.classify s sev) := by
  by_cases fatal : sev = 2
  · subst fatal
    have stops := fun e : Dev => (e.fatalStop_snapStands s).trans (Dev.react_snapStands _ s (d.fld .PST_SRC_REACT [s] 9 5) true)
    exact (((stops _).trans (Dev.pmcEvent_snapStands _ 2 none 1 (by decide))).trans
      (Dev.whipFault_snapStands _ s true true)).since rfl rfl
  · exact (d.classify_keeps fatal).snapStands (by decide) (by decide)

theorem Dev.oneEvent_snapStands (d : Dev) (sev s : Nat) : d.SnapStands (d.oneEvent sev s) := by
  have counted : ∀ e : Dev, e.SnapStands (e.count .PST_SRC_CNT [s]) := fun e => e.count_snapStands 1 (timInt_ne_of_base _ (by decide))
  unfold Dev.oneEvent
  refine .ite (fun _ => d.irq_snapStands _ _ _) fun _ => ?_
  exact ((((Dev.irq_snapStands _ _ 31 [s]).trans (counted _)).trans (Dev.pmcEvent_snapStands _ 1 none 1 (by decide))).trans
    (Dev.classify_snapStands _ s sev)).since rfl rfl

theorem Dev.events_snapStands (d : Dev) (s sev n : Nat) : d.SnapStands (d.events s sev n) :=
  .ite (fun _ => .refl d) fun _ => .foldl (fun d _ => d.oneEvent_snapStands sev s) _ d

theorem Dev.raise_snapStands (d : Dev) (s : Nat) : d.SnapStands (d.raise s) := d.events_snapStands s _ 1

theorem Dev.setCond_snapStands (d : Dev) (s : Nat) (holds : Bool) : d.SnapStands (d.setCond s holds) :=
  .ite (fun _ => .refl d) fun _ => Dev.SnapStands.trans (b := d.setSrc s _) ⟨rfl, id⟩ <|
    .opt (Dev.raise_snapStands _ s)

end Sys2Proof.Machine
end

section
/-! SUPPORT. The work of a boundary after its snapshot (R40), step by step: each leaves the snapshot as it stands. -/

namespace Sys2Proof.Machine

/-! Updates of one record. -/

theorem Dev.setPort_snapStands (d : Dev) (p : Nat) (x : PortDyn) : d.SnapStands (d.setPort p x) := ⟨rfl, id⟩

theorem Dev.setThatch_snapStands (d : Dev) (n : Nat) (x : ThatchDyn) : d.SnapStands (d.setThatch n x) := ⟨rfl, id⟩

theorem Dev.setDray_snapStands (d : Dev) (k : Nat) (x : ClsDray) : d.SnapStands (d.setDray k x) := ⟨rfl, id⟩

theorem Dev.modCo_snapStands (d : Dev) (c : Nat) (f : CoachDyn → CoachDyn) : d.SnapStands (d.modCo c f) := ⟨rfl, id⟩

theorem Dev.policerReset_snapStands (d : Dev) (c t : Nat) (full : Bool) : d.SnapStands (d.policerReset c t full) := ⟨rfl, id⟩

theorem Dev.pmc_snapStands (d : Dev) (x : Pmc) : d.SnapStands { d with pmc := x } := ⟨rfl, id⟩

theorem Dev.tbm_snapStands (d : Dev) (x : Tbm) : d.SnapStands { d with tbm := x } := ⟨rfl, id⟩

theorem Dev.ridge_snapStands (d : Dev) (x : Ridge) : d.SnapStands { d with ridge := x } := ⟨rfl, id⟩

theorem Dev.pair_snapStands (d : Dev) (x : Pair) : d.SnapStands { d with pair := x } := ⟨rfl, id⟩

theorem Dev.emit_snapStands (d : Dev) (o : Out) : d.SnapStands (d.emit o) := ⟨rfl, id⟩

/-! Domains, temperature and block resets. -/

theorem Dev.clsFinish_snapStands (d old : Dev) : d.SnapStands (d.clsFinish old) :=
  .each (fun d k _ => d.setDray_snapStands k _) d

theorem Dev.whipOutLost_snapStands (d : Dev) : d.SnapStands d.whipOutLost := .opt ⟨rfl, id⟩

theorem Dev.retrain_snapStands (d : Dev) (x : Nat) : d.SnapStands (d.retrain x) :=
  .each (fun d p _ => .opt (d.setPort_snapStands p _)) d

theorem Dev.ridgeDown_snapStands (d : Dev) : d.SnapStands d.ridgeDown :=
  .opt (((Dev.irq_snapStands _ _ 0 []).trans (Dev.raise_snapStands _ 56)).since rfl rfl)

theorem Dev.laneSearch_snapStands (d : Dev) (j : Nat) : d.SnapStands (d.laneSearch j) := by
  have counted : ∀ e : Dev, e.SnapStands (e.laneCnt j 4) := fun e => e.count_snapStands 1 (timInt_ne_of_base _ (by decide))
  unfold Dev.laneSearch
  refine Dev.SnapStands.since (.opt ?_) rfl rfl
  exact (((counted _).trans (Dev.irq_snapStands _ _ 2 [])).trans (Dev.raise_snapStands _ (134 + j))).trans (Dev.ridgeDown_snapStands _)

theorem Dev.ridgeOff_snapStands (d : Dev) : d.SnapStands d.ridgeOff := by
  have lanes : ∀ e : Dev, e.SnapStands (forEach 16 e fun d j =>
      if (d.lane j).state == LaneState.locked then (d.irq .RDG_INT_STAT 2).raise (134 + j) else d) :=
    .each fun d j _ => .opt ((d.irq_snapStands _ 2 []).trans (Dev.raise_snapStands _ (134 + j)))
  exact (d.ridgeDown_snapStands.trans (lanes _)).trans (Dev.ridge_snapStands _ _)

theorem Dev.ridgeTrain_snapStands (d : Dev) : d.SnapStands d.ridgeTrain :=
  .opt ((Dev.SnapStands.each (fun d j _ => .ite (fun _ => .refl d) fun _ => d.laneSearch_snapStands j) _).since rfl rfl)

theorem Dev.clearProbe_snapStands (d : Dev) (k : Nat) : d.SnapStands (d.clearProbe k) := by
  unfold Dev.clearProbe
  split
  · exact .refl d
  · exact ⟨rfl, id⟩

/-- The learned counts of a Dray lie below the time block. -/
theorem Dev.clearDray_snapStands (d : Dev) {k : Nat} (hk : k < 4) : d.SnapStands (d.clearDray k) :=
  (Dev.SnapStands.each (fun d i hi => d.wr_snapStands 0 (by simp [Reg.key, Reg.row]; omega)) _).since rfl rfl

theorem Dev.domLoss_snapStands (d : Dev) (x : Nat) : d.SnapStands (d.domLoss x) := by
  have skips : ∀ (e : Dev) (k : Nat) (l : Tab CoachDyn), e.SnapStands (l.foldl (fun (d : Dev) (e : Nat × CoachDyn) =>
      if d.pnDray e.1 == k then d.modCo e.1 skipAhead else d) e) := fun e k l =>
    .foldl (fun d x => .opt (d.modCo_snapStands x.1 _)) l e
  unfold Dev.domLoss
  refine .ite (fun h => ?_) fun _ => ?_
  · have hk : (x - 5) / 2 < 4 := by simp at h; omega
    exact .ite (fun _ => (skips d _ _).trans (Dev.clearDray_snapStands _ hk)) fun _ => d.clearProbe_snapStands _
  · exact .ite (fun _ => d.ridgeOff_snapStands) fun _ => .opt (d.retrain_snapStands x)

theorem Dev.domStart_snapStands (d : Dev) (n x : Nat) : d.SnapStands (d.domStart n x) :=
  .opt (.foldl (fun d (e : Nat × CoachDyn) => .opt (d.policerReset_snapStands e.1 _ true)) _ d)

theorem Dev.pmcBases_snapStands (d : Dev) : d.SnapStands d.pmcBases :=
  .each (fun d _ _ => .ite (fun _ => .ite (fun _ => .refl d) fun _ => d.pmc_snapStands _) fun _ => d.pmc_snapStands _) d

theorem Dev.domTo_snapStands (d : Dev) (n x : Nat) (s : DomState) (pend : Bool) : d.SnapStands (d.domTo n x s pend) :=
  ((Dev.irq_snapStands _ .PWR_INT_STAT 0 []).trans (Dev.pmcBases_snapStands _)).since rfl rfl

theorem Dev.domApply_snapStands (d : Dev) (n x : Nat) : d.SnapStands (d.domApply n x) := by
  unfold Dev.domApply
  dsimp only
  split
  · exact .opt (d.domTo_snapStands n x _ _)
  · exact .ite (fun _ => .refl d) fun _ => d.domTo_snapStands n x _ _
  · exact .ite (fun _ => .refl d) fun _ => ⟨rfl, id⟩
  · exact .refl d

theorem Dev.rampDone_snapStands (d : Dev) (n x : Nat) : d.SnapStands (d.rampDone n x) :=
  .opt (.ite (fun _ => (d.domTo_snapStands n x _ _).trans (Dev.domStart_snapStands _ n x)) fun _ => d.domTo_snapStands n x _ _)

theorem Dev.drainDone_snapStands (d : Dev) (n x : Nat) : d.SnapStands (d.drainDone n x) :=
  .opt (.ite
    (fun _ => .ite (fun _ => (d.domTo_snapStands n x _ _).trans (Dev.domStart_snapStands _ n x)) fun _ => d.domTo_snapStands n x _ _)
    fun _ => (d.domTo_snapStands n x _ _).trans (Dev.domLoss_snapStands _ x))

theorem Dev.domBoundary_snapStands (d : Dev) (n : Nat) (bad : List Nat) : d.SnapStands (d.domBoundary n bad) :=
  ((Dev.SnapStands.foldl (fun d x => .opt (d.setCond_snapStands (100 + x) true)) _ d).trans
    (.foldl (fun d x => (d.domApply_snapStands n x).trans (Dev.rampDone_snapStands _ n x)) _ _)).trans
    (.foldl (fun d x => d.drainDone_snapStands n x) _ _)

theorem Dev.voidDet_snapStands (d : Dev) (c : Nat) : d.SnapStands (d.voidDet c) :=
  (d.voidDet_keeps c).snapStands (by decide) (by decide)

theorem Dev.throttleStart_snapStands (d : Dev) : d.SnapStands d.throttleStart := by
  have counted : ∀ e : Dev, e.SnapStands (e.count .PWR_THROTTLE_CNT []) := fun e => e.count_snapStands 1 (by decide)
  exact (((((Dev.irq_snapStands _ .PWR_INT_STAT 1 []).trans (counted _)).trans (Dev.pmcEvent_snapStands _ 1 none 1 (by decide))).trans
    (Dev.raise_snapStands _ 2)).trans (Dev.voidDet_snapStands _ 2)).since rfl rfl

theorem Dev.throttleEnd_snapStands (d : Dev) : d.SnapStands d.throttleEnd :=
  .opt ((Dev.irq_snapStands _ .PWR_INT_STAT 1 []).since rfl rfl)

theorem Dev.readTemp_snapStands (d : Dev) (t : Int) : d.SnapStands (d.readTemp t) := by
  have warned : ∀ (e : Dev) (p : Prop) [Decidable p], e.SnapStands (if p then e.irq .PWR_INT_STAT 2 else e) := fun e _ _ =>
    .opt (e.irq_snapStands _ 2 [])
  have hot : ∀ e : Dev, e.SnapStands (if e.throttleAt ≤ t && !e.power.throttle then e.throttleStart else e) := fun e =>
    .opt e.throttleStart_snapStands
  exact d.throttleEnd_snapStands.trans <|
    (((warned _ _).trans (hot _)).trans (Dev.setCond_snapStands _ 3 _)).since rfl rfl

/-- What a filter leaves of a table at a key that it takes. -/
theorem tget_filter {α : Type} (p : Nat × α → Bool) (t : Tab α) {k : Nat} (h : ∀ v, p (k, v) = true) :
    tget (t.filter p) k = tget t k := by
  induction t with
  | nil => rfl
  | cons e r ih =>
    obtain ⟨j, v⟩ := e
    by_cases hj : j = k
    · subst hj
      simp [h v, tget]
    · cases hp : p (j, v) <;> simp [hp, tget, hj, ih]

theorem Dev.pcieReset_snapStands (d : Dev) : d.SnapStands d.pcieReset := by
  refine .of_word rfl ?_
  unfold wordAt Dev.pcieReset
  rw [tget_filter]
  exact fun _ => rfl

theorem Dev.unitReset_snapStands (d : Dev) (s : Nat) : d.SnapStands (d.unitReset s) := by
  unfold Dev.unitReset Dev.serdesReset
  exact .ite (fun _ => d.retrain_snapStands _) fun _ => .ite (fun _ => d.retrain_snapStands _) fun _ =>
    .ite (fun _ => .ite (fun _ => .refl d) fun _ => d.laneSearch_snapStands _) fun _ => .opt d.pcieReset_snapStands

theorem Dev.blockReset_snapStands (d : Dev) (s : Nat) : d.SnapStands (d.blockReset s) := by
  unfold Dev.blockReset
  split
  · exact (Dev.unitReset_snapStands _ s).since rfl rfl
  · exact .refl d

theorem Dev.blockResets_snapStands (d : Dev) : d.SnapStands d.blockResets := .foldl Dev.blockReset_snapStands _ d

/-! Line ports. -/

theorem Dev.loseLeft_snapStands (d : Dev) (n : Nat) : d.SnapStands (d.loseLeft n) := by
  unfold Dev.loseLeft
  dsimp only
  split <;> exact ⟨rfl, id⟩

theorem Dev.sfStream_snapStands (d : Dev) (b n : Nat) : d.SnapStands (d.sfStream b n) := by
  have lost : d.SnapStands (if d.hasLeft n then d.cnt (32 + n) 13 else d) := .opt (d.cnt_snapStands _ 13 1 (by decide))
  exact .ite (fun _ => d.setThatch_snapStands n _) fun _ => .opt ((lost.trans (Dev.loseLeft_snapStands _ n)).until rfl rfl)

theorem Dev.addArrival_snapStands (d : Dev) (a : Arrival) : d.SnapStands (d.addArrival a) := by
  unfold Dev.addArrival
  exact .ite (fun _ => ⟨rfl, id⟩) fun _ => .ite (fun _ => ⟨rfl, id⟩) fun _ => (Dev.rxCount_snapStands _ _ _).since rfl rfl

theorem Dev.alignLost_snapStands (d : Dev) (n b : Nat) : d.SnapStands (d.alignLost n b) := by
  unfold Dev.alignLost
  refine Dev.SnapStands.trans (.opt ?_) (Dev.setThatch_snapStands _ n _)
  exact .ite (fun _ => (Dev.addArrival_snapStands _ _).since rfl rfl) fun _ => ⟨rfl, id⟩

theorem Dev.defectStep_snapStands (d : Dev) (b n : Nat) : d.SnapStands (d.defectStep b n) := by
  have shows : ∀ (e : Dev) (p : Prop) [Decidable p] (m : Nat), e.SnapStands (if p then e.setStat .THP_EVT [n] m else e) := fun e _ _ m =>
    .opt (e.setStat_snapStands _ _ m)
  exact .ite (fun _ => d.setPort_snapStands _ _) fun _ => ((shows _ _ _).trans (.opt (Dev.alignLost_snapStands _ n b))).since rfl rfl

/-! Calibration, probes, masks and the host's flash. -/

theorem Dev.calDue_snapStands (d : Dev) (n : Nat) : d.SnapStands (d.calDue n) :=
  .opt (.each (fun d _ _ => .opt (d.tbm_snapStands _)) d)

theorem Dev.calAbandon_snapStands (d : Dev) (c : Nat) : d.SnapStands (d.calAbandon c) := by
  have late : ∀ e : Dev, e.SnapStands (e.count .TBM_CH_CAL_LATE [c]) := fun e =>
    e.count_snapStands 1 (by simp [Reg.key, Reg.row]; omega)
  exact .ite (fun _ => .refl d) fun _ => ((late _).trans (Dev.irq_snapStands _ _ 2 [])).since rfl rfl

theorem Dev.expireProbe_snapStands (d : Dev) (n k : Nat) : d.SnapStands (d.expireProbe n k) := by
  unfold Dev.expireProbe
  split
  · exact .opt (d.clearProbe_snapStands k)
  · exact .refl d

theorem Dev.closeWindow_snapStands (d : Dev) (n s : Nat) : d.SnapStands (d.closeWindow n s) := .opt ⟨rfl, id⟩

theorem Dev.maskRedraw_snapStands (d : Dev) (n : Nat) : d.SnapStands (d.maskRedraw n) := .opt ⟨rfl, id⟩

theorem Dev.addJob_snapStands (d : Dev) (w : JobWork) : d.SnapStands (d.addJob w) := .opt ⟨rfl, id⟩

theorem Dev.flNext_snapStands (d : Dev) : d.SnapStands d.flNext := .ite (fun _ => .refl d) fun _ => ⟨rfl, id⟩

theorem Dev.pmcWraps_snapStands (d : Dev) : d.SnapStands d.pmcWraps := by
  have shown : ∀ (e : Dev) (now : Nat → Bool) (l : List Nat),
      e.SnapStands (l.foldl (fun (d : Dev) b => if now b then d.irq .PMC_INT_STAT (b % 20) else d) e) := fun e _ l =>
    .foldl (fun d b => .opt (d.irq_snapStands _ (b % 20) [])) l e
  exact .ite (fun _ => .refl d) fun _ =>
    ((shown d.draw.1 (fun b => 20 ≤ b || d.draw.2.getLsbD b) d.pmc.wrapped).since (a := d) rfl rfl).trans (Dev.pmc_snapStands _ _)

/-! What the pair sends. -/

theorem Dev.noteBeat_snapStands (d : Dev) (n : Nat) : d.SnapStands (d.noteBeat n) := ⟨rfl, id⟩

theorem Dev.sendDelivery_snapStands (d : Dev) (n : Nat) : d.SnapStands (d.sendDelivery n) :=
  .ite (fun _ => ⟨rfl, id⟩) fun _ => .ite (fun _ => .refl d) fun _ => .ite (fun _ => .refl d) fun _ => ⟨rfl, id⟩

theorem Dev.topUp_snapStands (n : Nat) (l : List Nat) (need fuel : Nat) (d : Dev) : d.SnapStands (Dev.topUp n l need fuel d) := by
  induction fuel generalizing d with
  | zero => exact .refl d
  | succ f ih =>
    unfold Dev.topUp
    refine .ite (fun _ => .refl d) fun _ => ?_
    dsimp only
    split
    · exact .refl d
    · exact .ite (fun _ => ⟨rfl, id⟩) fun _ => (ih _).since rfl rfl

theorem Dev.sendCopy_snapStands (d : Dev) (n room : Nat) : d.SnapStands (d.sendCopy n room).1 := by
  unfold Dev.sendCopy
  split
  · exact ⟨rfl, id⟩
  · exact ((Dev.topUp_snapStands _ _ _ _ d).trans (Dev.pair_snapStands _ _)).trans (Dev.emit_snapStands _ _)

theorem Dev.sendLead_snapStands (d old : Dev) (n : Nat) (t : RidgeTx) : d.SnapStands (d.sendLead old n t).1 := by
  have commands : ∀ (e : Dev) (l : List PairCmd), e.SnapStands (if l.isEmpty then e else e.emit (.commands l)) := fun e l =>
    .ite (fun _ => .refl e) fun _ => e.emit_snapStands _
  exact (((d.emit_snapStands _).trans (commands _ d.cmdsDue)).trans (Dev.sendDelivery_snapStands _ n)).trans
    (Dev.sendCopy_snapStands _ n _)

theorem Dev.loadFrames_snapStands (d : Dev) (t : RidgeTx) : d.SnapStands (d.loadFrames t) :=
  .ite (fun _ => ⟨rfl, id⟩) fun _ => ⟨rfl, id⟩

theorem Dev.pairSend_snapStands (d old : Dev) (n : Nat) : d.SnapStands (d.pairSend old n) := by
  have digest : ∀ (e : Dev) (p : Prop) [Decidable p] (b : Bytes), e.SnapStands (if p then e.emit (.digest b) else e) := fun e _ _ b =>
    .opt (e.emit_snapStands _)
  have leads : ∀ (e : Dev) (p : Prop) [Decidable p] (t : RidgeTx), e.SnapStands (if p then e.sendLead old n t else (e, t)).1 := by
    intro e p _ t
    split
    · exact e.sendLead_snapStands old n t
    · exact .refl e
  exact ((((d.noteBeat_snapStands n).trans (digest _ _ _)).trans (leads _ _ _)).trans (Dev.loadFrames_snapStands _ _)).trans
    (Dev.pair_snapStands _ _)

/-! The new beat, and the end of the command. -/

theorem Dev.alarm_snapStands (d : Dev) (n : Nat) : d.SnapStands (d.alarm n) := .opt (d.irq_snapStands _ 0 [])

theorem Dev.heartbeat_snapStands (d : Dev) : d.SnapStands d.heartbeat := ⟨rfl, id⟩

theorem Dev.firstBlock_snapStands (d : Dev) : d.SnapStands d.firstBlock := by
  unfold Dev.firstBlock
  split
  · exact .opt (d.pmcEvent_snapStands 1 none 1 (by decide))
  · exact .refl d

theorem Dev.beginBeat_snapStands (d : Dev) (n : Nat) : d.SnapStands (d.beginBeat n) := (Dev.firstBlock_snapStands _).since rfl rfl

theorem Dev.settle_snapStands (d : Dev) : d.SnapStands d.settle :=
  ((d.setCond_snapStands 186 _).trans (Dev.messages_quiet _).snapStands).trans
    (.ite (fun _ => .refl _) fun _ => (Dev.Quiet.foldl (fun d v => d.unmask_quiet v) _ _).snapStands)

end Sys2Proof.Machine
end

section
/-! SUPPORT. What comes before the snapshot at a boundary (R40, R466): it leaves the time bases as they are, or moves them and leaves a
snapshot asked for. -/

namespace Sys2Proof.Machine

theorem foldl_same {α β : Type} (g : Dev → β) {f : Dev → α → Dev} (hf : ∀ d x, g (f d x) = g d) (l : List α) (d : Dev) :
    g (l.foldl f d) = g d := by
  induction l generalizing d with
  | nil => rfl
  | cons x l ih => rw [List.foldl_cons, ih, hf]

@[simp] theorem foldl_time {α : Type} {f : Dev → α → Dev} (hf : ∀ d x, (f d x).time = d.time) (l : List α) (d : Dev) :
    (l.foldl f d).time = d.time := foldl_same Dev.time hf l d

@[simp] theorem forEach_time {n : Nat} {f : Dev → Nat → Dev} (hf : ∀ d x, (f d x).time = d.time) (d : Dev) :
    (forEach n d f).time = d.time := foldl_time hf _ d

@[simp] theorem foldl_snapReq {α : Type} {f : Dev → α → Dev} (hf : ∀ d x, (f d x).time.snapReq = d.time.snapReq) (l : List α)
    (d : Dev) : (l.foldl f d).time.snapReq = d.time.snapReq := foldl_same (fun d => d.time.snapReq) hf l d

@[simp] theorem forEach_snapReq {n : Nat} {f : Dev → Nat → Dev} (hf : ∀ d x, (f d x).time.snapReq = d.time.snapReq) (d : Dev) :
    (forEach n d f).time.snapReq = d.time.snapReq := foldl_snapReq hf _ d

@[simp] theorem Dev.time_ite (c : Prop) [Decidable c] (a b : Dev) : (if c then a else b).time = if c then a.time else b.time :=
  apply_ite ..

@[simp] theorem Dev.snapReq_ite (c : Prop) [Decidable c] (a b : Time) :
    (if c then a else b).snapReq = if c then a.snapReq else b.snapReq := apply_ite ..

/-! Functions of what follows the snapshot, and the packers and counters at the end of a beat. -/

@[simp] theorem Dev.newCclk_time (d : Dev) : d.newCclk.time = d.time := rfl

@[simp] theorem Dev.raise_time (d : Dev) (s : Nat) : (d.raise s).time = d.time := (d.raise_snapStands s).time

@[simp] theorem Dev.pmcEvent_time (d : Dev) (b code : Nat) (slot : Option Nat) (n : Nat) : (d.pmcEvent b code slot n).time = d.time := by
  obtain ⟨_, _, _, _, h⟩ := d.pmcEvent_counted b code slot n
  rw [h]

@[simp] theorem Dev.events_time (d : Dev) (s sev n : Nat) : (d.events s sev n).time = d.time := (d.events_snapStands s sev n).time

@[simp] theorem Dev.irq_time (d : Dev) (r : Reg) (i : Nat) (ix : List Nat) : (d.irq r i ix).time = d.time := rfl

@[simp] theorem Dev.whipTrigger_time (d : Dev) (bitNo fault : Nat) : (d.whipTrigger bitNo fault).time = d.time :=
  (d.whipTrigger_keeps bitNo fault).time (by simp)

@[simp] theorem Dev.setCond_time (d : Dev) (s : Nat) (holds : Bool) : (d.setCond s holds).time = d.time :=
  (d.setCond_snapStands s holds).time

@[simp] theorem Dev.setDray_time (d : Dev) (k : Nat) (x : ClsDray) : (d.setDray k x).time = d.time := rfl

@[simp] theorem Dev.modCo_time (d : Dev) (c : Nat) (f : CoachDyn → CoachDyn) : (d.modCo c f).time = d.time :=
  (d.modCo_snapStands c f).time

@[simp] theorem Dev.clearProbe_time (d : Dev) (k : Nat) : (d.clearProbe k).time = d.time := (d.clearProbe_snapStands k).time

@[simp] theorem Dev.addJob_time (d : Dev) (w : JobWork) : (d.addJob w).time = d.time := (d.addJob_snapStands w).time

@[simp] theorem Dev.policerReset_time (d : Dev) (c t : Nat) (full : Bool) : (d.policerReset c t full).time = d.time :=
  (d.policerReset_snapStands c t full).time

@[simp] theorem Dev.removeUnit_time (d : Dev) (q : Nat) (u : Pkt) : (d.removeUnit q u).time = d.time := rfl

@[simp] theorem Dev.rxCount_time (d : Dev) (p len : Nat) : (d.rxCount p len).time = d.time := (d.rxCount_snapStands p len).time

@[simp] theorem Dev.stompAll_time (d : Dev) (t : Nat) : (d.stompAll t).time = d.time := (d.stompAll_snapStands t).time

@[simp] theorem Dev.voidDet_time (d : Dev) (cause : Nat) : (d.voidDet cause).time = d.time := rfl

@[simp] theorem Dev.endPack_time (d : Dev) : (forEach 32 d fun d n => d.packTo n d.now).time = d.time :=
  (Dev.SnapStands.each (fun d _ hn => (d.packTo_packed hn _).snapStands) d).time

@[simp] theorem Dev.pmcPass_time (d : Dev) (n : Nat) : (d.pmcPass n).time = d.time := (d.pmcPass_quiet n).snapStands.time

/-! Lines of the tables, and the end of the beat (R352 to R362, R571). -/

@[simp] theorem Dev.tickTo_time (d : Dev) (c : Nat) : (d.tickTo c).time = d.time := by simp [Dev.tickTo]

@[simp] theorem Dev.notIntact_time (d : Dev) : d.notIntact.time = d.time := by simp [Dev.notIntact]

@[simp] theorem Dev.lineFail_time (d : Dev) (c a : Nat) (uncorrectable : Bool) : (d.lineFail c a uncorrectable).time = d.time := by
  simp [Dev.lineFail]

@[simp] theorem Dev.lineCorrected_time (d : Dev) (c a n : Nat) : (d.lineCorrected c a n).time = d.time := by simp [Dev.lineCorrected]

@[simp] theorem Dev.readLine_time (d : Dev) (c a : Nat) : (d.readLine c a).1.time = d.time := by simp [Dev.readLine, apply_ite Prod.fst]

@[simp] theorem Dev.wrFld_time (d : Dev) (r : Reg) (ix : List Nat) (hi lo v : Nat) : (d.wrFld r ix hi lo v).time = d.time := rfl

@[simp] theorem Dev.peak_time (d : Dev) (r : Reg) (ix : List Nat) (hi lo v : Nat) : (d.peak r ix hi lo v).time = d.time := by
  simp [Dev.peak]

@[simp] theorem Dev.opsPeak_time (d : Dev) (c : Nat) : (d.opsPeak c).time = d.time := by simp [Dev.opsPeak]

@[simp] theorem Dev.takeOp_time (d : Dev) (c : Nat) : (d.takeOp c).time = d.time := by simp [Dev.takeOp]

@[simp] theorem Dev.dmaLine_time (d : Dev) (keep : Nat) (j : DmaJob) : (d.dmaLine keep j).time = d.time := by
  unfold Dev.dmaLine
  dsimp only
  split
  · split <;> simp
  · rfl

@[simp] theorem Dev.dmaServe_time (d : Dev) (keep : Nat) : (d.dmaServe keep).time = d.time := by
  unfold Dev.dmaServe
  split <;> simp

@[simp] theorem Dev.setLine_time (d : Dev) (c a : Nat) (v : BitVec 240) : (d.setLine c a v).time = d.time := rfl

@[simp] theorem Dev.writeLine_time (d : Dev) (c a : Nat) (v : BitVec 240) : (d.writeLine c a v).time = d.time := by simp [Dev.writeLine]

@[simp] theorem Dev.writeBack_time (d : Dev) (k : Nat) : (d.writeBack k).time = d.time := by simp [Dev.writeBack]

@[simp] theorem Dev.scrubRead_time (d : Dev) (c : Nat) : (d.scrubRead c).time = d.time := by simp [Dev.scrubRead]

@[simp] theorem Dev.scrubBeat_time (d : Dev) : d.scrubBeat.time = d.time := by simp [Dev.scrubBeat]

@[simp] theorem Dev.whipBeat_time (d : Dev) : d.whipBeat.time = d.time := by simp [Dev.whipBeat]

@[simp] theorem Dev.whipTime_time (d : Dev) : d.whipTime.time = d.time := by simp [Dev.whipTime]

@[simp] theorem Dev.framesSent_time (d : Dev) : d.framesSent.time = d.time := by simp [Dev.framesSent]

@[simp] theorem Dev.trngRecover_time (d : Dev) : d.trngRecover.time = d.time := by simp [Dev.trngRecover]

@[simp] theorem Dev.trngBeat_time (d : Dev) : d.trngBeat.time = d.time := by simp [Dev.trngBeat]

@[simp] theorem Dev.maskSweepEnd_time (d : Dev) : d.maskSweepEnd.time = d.time := by
  unfold Dev.maskSweepEnd
  split <;> rfl

@[simp] theorem Dev.sweepStep_time (d : Dev) : d.sweepStep.time = d.time := by simp [Dev.sweepStep]

@[simp] theorem Dev.endBeat_time (d : Dev) : d.endBeat.time = d.time := by simp [Dev.endBeat]

@[simp] theorem Dev.wrapCclk_time (d : Dev) : d.wrapCclk.time = d.time := by simp [Dev.wrapCclk]

/-! The new beat, and the latch of the WHIP. -/

@[simp] theorem Dev.newRecord_time (d : Dev) : d.newRecord.time = d.time := rfl

@[simp] theorem Dev.whipOutEnd_time (d : Dev) : d.whipOutEnd.time = d.time := rfl

@[simp] theorem Dev.newBeat_time (d : Dev) (n : Nat) : (d.newBeat n).time = d.time := rfl

@[simp] theorem Dev.realign_snapReq (d : Dev) (by_ : Int) : (d.realign by_).time.snapReq = d.time.snapReq := by simp [Dev.realign]

@[simp] theorem Dev.whipMiss_time (d : Dev) : d.whipMiss.time = d.time := by simp [Dev.whipMiss]

@[simp] theorem Dev.pmcSnapshot_time (d old : Dev) : (d.pmcSnapshot old).time = d.time := by simp [Dev.pmcSnapshot]

/-- A latch of the WHIP asks for a snapshot too (R466). -/
theorem Dev.whipLatch_asked {d : Dev} (asked : d.time.snapReq = true) (old : Dev) (n : Nat) :
    (d.whipLatch old n).time.snapReq = true := by
  unfold Dev.whipLatch
  dsimp only
  split
  · exact asked
  · split <;> simp

/-! Learning, aging and migration (R323 to R333). -/

@[simp] theorem Dev.clsCnt_time (d : Dev) (k c : Nat) : (d.clsCnt k c).time = d.time := rfl

@[simp] theorem Dev.cachePut_time (d : Dev) (k key coach : Nat) (loc : CacheLoc) : (d.cachePut k key coach loc).time = d.time := rfl

@[simp] theorem Dev.putOvf_time (d : Dev) (k i : Nat) (e : OvfEntry) : (d.putOvf k i e).time = d.time := rfl

@[simp] theorem Dev.moveRecord_time (d : Dev) (k key n : Nat) : (d.moveRecord k key n).time = d.time := by simp [Dev.moveRecord]

@[simp] theorem Dev.setPos_time (d : Dev) (k id s st : Nat) : (d.setPos k id s st).time = d.time := rfl

@[simp] theorem Dev.newLearned_time (d : Dev) (k i key coach : Nat) : (d.newLearned k i key coach).time = d.time := rfl

@[simp] theorem Dev.learnNew_time (d : Dev) (k p key coach : Nat) : (d.learnNew k p key coach).time = d.time := by
  unfold Dev.learnNew
  split
  · simp
  · split <;> simp

@[simp] theorem Dev.learnOne_time (d : Dev) (n : Nat) (e : LearnEvent) : (d.learnOne n e).time = d.time := by
  unfold Dev.learnOne
  dsimp only
  repeat' split
  all_goals simp

@[simp] theorem Dev.learnAll_time (n : Nat) (l seen : List LearnEvent) (d : Dev) : (Dev.learnAll n l seen d).time = d.time := by
  induction l generalizing seen d with
  | nil => rfl
  | cons e r ih =>
    unfold Dev.learnAll
    split <;> simp [ih]

@[simp] theorem Dev.learnBeat_time (d : Dev) (n : Nat) : (d.learnBeat n).time = d.time := by
  simp [Dev.learnBeat]

@[simp] theorem Dev.lcountDown_time (d : Dev) (k key : Nat) : (d.lcountDown k key).time = d.time := rfl

@[simp] theorem Dev.cacheDrop_time (d : Dev) (k key : Nat) : (d.cacheDrop k key).time = d.time := by
  unfold Dev.cacheDrop
  dsimp only
  split
  · split <;> rfl
  · rfl

@[simp] theorem Dev.ageSlot_time (d : Dev) (k b s : Nat) : (d.ageSlot k b s).time = d.time := by simp [Dev.ageSlot]

@[simp] theorem Dev.freeOvf_time (d : Dev) (k i : Nat) : (d.freeOvf k i).time = d.time := rfl

@[simp] theorem Dev.ageOvf_time (d : Dev) (k i : Nat) : (d.ageOvf k i).time = d.time := by
  unfold Dev.ageOvf
  split
  · split
    · split <;> simp
    · rfl
  · rfl

@[simp] theorem Dev.age_time (d : Dev) (n k : Nat) : (d.age n k).time = d.time := by simp [Dev.age]

@[simp] theorem Dev.dropStep_time (d : Dev) (k i : Nat) : (d.dropStep k i).time = d.time := rfl

@[simp] theorem Dev.flipPlace_time (d : Dev) (k n i : Nat) (e : OvfEntry) (id slot : Nat) (migrated moved : Bool) :
    (d.flipPlace k n i e id slot migrated moved).time = d.time := by
  unfold Dev.flipPlace
  split <;> simp

@[simp] theorem Dev.putStep_time (d : Dev) (k : Nat) (s : MigStep) : (d.putStep k s).time = d.time := rfl

@[simp] theorem Dev.flipStep_time (d : Dev) (k n : Nat) (s : MigStep) : (d.flipStep k n s).time = d.time := by
  unfold Dev.flipStep
  split
  · simp
  · split
    · split <;> simp
    · split <;> simp
    all_goals simp

@[simp] theorem Dev.flips_time (d : Dev) (n k : Nat) : (d.flips n k).time = d.time := by simp [Dev.flips]

@[simp] theorem Dev.clsBoundary_time (d : Dev) (n : Nat) : (d.clsBoundary n).time = d.time := by simp [Dev.clsBoundary]

/-! The floor and the stage switches (R215 to R221). -/

@[simp] theorem Dev.beginFloorWrite_time (d : Dev) (f n : Nat) : (d.beginFloorWrite f n).time = d.time := rfl

@[simp] theorem Dev.floorCheck_time (d : Dev) (n : Nat) : (d.floorCheck n).time = d.time := by simp [Dev.floorCheck]

@[simp] theorem Dev.loadDerived_time (d : Dev) (n : Nat) : (d.loadDerived n).time = d.time := by
  unfold Dev.loadDerived
  split
  · rfl
  · split <;> simp

@[simp] theorem Dev.dropRequests_time (d : Dev) (f : DrvReq → Bool) : (d.dropRequests f).time = d.time := rfl

@[simp] theorem Dev.askDerive_time (d : Dev) (r : DrvReq) : (d.askDerive r).time = d.time := by simp [Dev.askDerive]

@[simp] theorem Dev.queueStage_time (d : Dev) (c s : Nat) : (d.queueStage c s).time = d.time := by simp [Dev.queueStage]

@[simp] theorem Dev.restartCoach_time (d : Dev) (c : Nat) : (d.restartCoach c).time = d.time := by simp [Dev.restartCoach]

@[simp] theorem Dev.endEvents_time (d : Dev) (c : Nat) : (d.endEvents c).time = d.time := rfl

@[simp] theorem Dev.switchMove_time (d : Dev) (c n : Nat) : (d.switchMove c n).time = d.time := by
  unfold Dev.switchMove
  dsimp only
  split
  · split <;> simp
  all_goals simp

@[simp] theorem Dev.takeProbe_time (d : Dev) (c n k : Nat) (s : Slot) : (d.takeProbe c n k s).time = d.time := by simp [Dev.takeProbe]

@[simp] theorem Dev.switchCoach_time (d : Dev) (c n : Nat) : (d.switchCoach c n).time = d.time := by
  unfold Dev.switchCoach
  dsimp only
  split
  · simp
  · split <;> simp

@[simp] theorem Dev.switchAll_time (d : Dev) (n : Nat) : (d.switchAll n).time = d.time := by simp [Dev.switchAll]

@[simp] theorem Dev.floorEffect_time (d : Dev) (n : Nat) : (d.floorEffect n).time = d.time := by
  unfold Dev.floorEffect
  split <;> simp

@[simp] theorem Dev.joinQueue_time (d : Dev) : d.joinQueue.time = d.time := by simp [Dev.joinQueue]

/-! Commits (R13 to R18). -/

@[simp] theorem Dev.flushDray_time (d : Dev) (k : Nat) : (d.flushDray k).time = d.time := rfl

@[simp] theorem Dev.shaperReset_time (d : Dev) (q t : Nat) : (d.shaperReset q t).time = d.time := rfl

@[simp] theorem Dev.takeInc_snapReq (d : Dev) (n : Nat) : (d.takeInc n).time.snapReq = d.time.snapReq := rfl

@[simp] theorem Dev.tbAdjust_snapReq (d : Dev) (n : Nat) : (d.tbAdjust n).time.snapReq = d.time.snapReq := by simp [Dev.tbAdjust]

@[simp] theorem Dev.tbKeep_snapReq (d : Dev) (n b : Nat) : (d.tbKeep n b).time.snapReq = d.time.snapReq := by simp [Dev.tbKeep]

@[simp] theorem Dev.wordEffect_snapReq (t : Nat) (d : Dev) (k : Nat) : (Dev.wordEffect t d k).time.snapReq = d.time.snapReq := by
  unfold Dev.wordEffect
  split <;> simp

@[simp] theorem Dev.hostRequest_time (d : Dev) (k op : Nat) (key : OvfKey) (coach : Nat) :
    (d.hostRequest k op key coach).time = d.time := by
  unfold Dev.hostRequest
  dsimp only
  split
  · rfl
  · split <;> simp

@[simp] theorem Dev.emRequest_time (d : Dev) (e : Nat) : (d.emRequest e).time = d.time := by
  refine (forEach_time (fun e i => ?_) _).trans ?_
  · rfl
  · simp

@[simp] theorem Dev.bloomSet_time (d : Dev) (v6 : Bool) (len v k : Nat) : (d.bloomSet v6 len v k).time = d.time := rfl

@[simp] theorem Dev.dataRequest_time (d : Dev) (e : Nat) : (d.dataRequest e).time = d.time := by
  refine (forEach_time (fun e i => ?_) _).trans ?_
  · rfl
  · simp

@[simp] theorem Dev.wordsDone_snapReq (d : Dev) (t : Nat) (es : List Entry) : (d.wordsDone t es).time.snapReq = d.time.snapReq := by
  simp [Dev.wordsDone]

@[simp] theorem Dev.withEntries_time (d : Dev) (es : List Entry) : (d.withEntries es).time = d.time := rfl

@[simp] theorem Dev.putEntries_snapReq (d : Dev) (t : Nat) (es : List Entry) : (d.putEntries t es).time.snapReq = d.time.snapReq := by
  simp [Dev.putEntries]

@[simp] theorem Dev.commitBatch_snapReq (d : Dev) (n : Nat) (b : Batch) : (d.commitBatch n b).time.snapReq = d.time.snapReq := by
  simp [Dev.commitBatch]

@[simp] theorem Dev.ckCommit_time (d : Dev) : d.ckCommit.time = d.time := by simp [Dev.ckCommit]

@[simp] theorem Dev.ckAsk_time (d : Dev) : d.ckAsk.time = d.time := by simp [Dev.ckAsk]

@[simp] theorem Dev.loadDelivery_time (d : Dev) (v : Delivery) : (d.loadDelivery v).time = d.time := by simp [Dev.loadDelivery]

@[simp] theorem Dev.setCk_time (d : Dev) (i : Nat) (key : Option (BitVec 256)) : (d.setCk i key).time = d.time := by
  unfold Dev.setCk
  split <;> simp

@[simp] theorem Dev.updateCk_time (d : Dev) (v : Delivery) : (d.updateCk v).time = d.time := by simp [Dev.updateCk]

@[simp] theorem Dev.applyDelivery_time (d : Dev) (e : Entry) : (d.applyDelivery e).time = d.time := by
  unfold Dev.applyDelivery
  split <;> simp

@[simp] theorem Dev.policerResets_time (d : Dev) (t : Nat) (ks moved : List Nat) : (d.policerResets t ks moved).time = d.time := by
  simp [Dev.policerResets]

@[simp] theorem Dev.tbConfig_snapReq (d : Dev) (n old : Nat) : (d.tbConfig n old).time.snapReq = d.time.snapReq := by simp [Dev.tbConfig]

@[simp] theorem Dev.oneStepLost_time (d old : Dev) (ks : List Nat) : (d.oneStepLost old ks).time = d.time := by simp [Dev.oneStepLost]

@[simp] theorem Dev.leaveGap_time (d : Dev) (q : Nat) (u : Pkt) : (d.leaveGap q u).time = d.time := by simp [Dev.leaveGap]

@[simp] theorem Dev.oversizeDrop_time (d : Dev) (q : Nat) (u : Pkt) : (d.oversizeDrop q u).time = d.time := by simp [Dev.oversizeDrop]

@[simp] theorem Dev.removeOversize_time (d : Dev) (p : Nat) : (d.removeOversize p).time = d.time := by simp [Dev.removeOversize]

@[simp] theorem Dev.gateCommit_time (d : Dev) (es : List Entry) : (d.gateCommit es).time = d.time := by simp [Dev.gateCommit]

@[simp] theorem Dev.trainingOff_time (d : Dev) : d.trainingOff.time = d.time := by simp [Dev.trainingOff]

@[simp] theorem Dev.commitEnd_snapReq (d old : Dev) (t : Nat) (es : List Entry) (moved : List Nat) :
    (d.commitEnd old t es moved).time.snapReq = d.time.snapReq := by simp [Dev.commitEnd]

@[simp] theorem Dev.coachChanged_time (d old : Dev) (c : Nat) : (d.coachChanged old c).time = d.time := by simp [Dev.coachChanged]

@[simp] theorem Dev.coachesChanged_time (d old : Dev) (ks : List Nat) : (d.coachesChanged old ks).time = d.time := by
  refine foldl_time (fun d k => ?_) ks d
  split <;> simp

@[simp] theorem Dev.commitAll_snapReq (d : Dev) (n : Nat) : (d.commitAll n).time.snapReq = d.time.snapReq := by simp [Dev.commitAll]

theorem Dev.steps_asked {d : Dev} (asked : d.time.snapReq = true) (old : Dev) (n : Nat) :
    (d.steps old n).time.snapReq = true := by
  simp [Dev.steps, d.whipLatch_asked asked old n]

/-! Records of the active (R487, R509). -/

@[simp] theorem Dev.phaseStep_time (phase : Tab Nat) (d : Dev) (p : Nat) : (Dev.phaseStep phase d p).time = d.time := rfl

@[simp] theorem Dev.setPpsIn_snapReq (d : Dev) (i : Nat) (x : PpsIn) : (d.setPpsIn i x).time.snapReq = d.time.snapReq := rfl

@[simp] theorem Dev.ppsTake_snapReq (d : Dev) (i k b offset phi : Nat) (caps : List Nat) :
    (d.ppsTake i k b offset phi caps).time.snapReq = d.time.snapReq := rfl

@[simp] theorem Dev.ppsOwn_snapReq (d : Dev) (k : Nat) (takes : Bool) : (d.ppsOwn k takes).time.snapReq = d.time.snapReq := by
  refine forEach_snapReq (fun d i => ?_) d
  have takes_all := fun (l : List (Nat × Nat × Nat × List Nat)) e =>
    foldl_snapReq (fun (d : Dev) (c : Nat × Nat × Nat × List Nat) => d.ppsTake_snapReq i c.1 c.1 c.2.1 c.2.2.1 c.2.2.2) l e
  simp [takes_all]

@[simp] theorem Dev.recordPorts_time (d : Dev) (r : BRecord) : (d.recordPorts r).time = d.time := by
  refine foldl_time (fun d e => ?_) _ d
  rfl

@[simp] theorem Dev.goAstray_time (d : Dev) : d.goAstray.time = d.time := rfl

@[simp] theorem Dev.pairCnt_time (d : Dev) (c : Nat) : (d.pairCnt c).time = d.time := rfl

@[simp] theorem Dev.assignHeld_time (d : Dev) (k index : Nat) (e : RecUnit) : (d.assignHeld k index e).time = d.time := by
  unfold Dev.assignHeld
  split <;> simp

theorem Dev.assignRecord_fold_time (k : Nat) (l : List RecUnit) (s : Dev × Nat × Nat) :
    (l.foldl (fun (s : Dev × Nat × Nat) e =>
      let i := if e.slot == s.2.1 then s.2.2 else 0
      (s.1.assignHeld k i e, e.slot, i + 1)) s).1.time = s.1.time := by
  induction l generalizing s with
  | nil => rfl
  | cons e l ih => rw [List.foldl_cons, ih]; simp

@[simp] theorem Dev.assignRecord_time (d : Dev) (r : BRecord) : (d.assignRecord r).time = d.time :=
  Dev.assignRecord_fold_time _ _ _

@[simp] theorem Dev.spareSources_time (d : Dev) (k : Nat) (b : Bytes) : (d.spareSources k b).time = d.time := by simp [Dev.spareSources]

@[simp] theorem Dev.recordEvent_snapReq (d : Dev) (k : Nat) (b : Bytes) : (d.recordEvent k b).time.snapReq = d.time.snapReq := by
  unfold Dev.recordEvent
  split <;> simp

@[simp] theorem Dev.useRecord_snapReq (d : Dev) (r : BRecord) : (d.useRecord r).time.snapReq = d.time.snapReq := by simp [Dev.useRecord]

@[simp] theorem Dev.dropKept_snapReq (d : Dev) (k : Nat) : (d.dropKept k).time.snapReq = d.time.snapReq := by simp [Dev.dropKept]

@[simp] theorem Dev.assignKept_time (d : Dev) (a : Arrival) : (d.assignKept a).time = d.time := by simp [Dev.assignKept]

@[simp] theorem Dev.assignOwn_snapReq (d : Dev) (k : Nat) : (d.assignOwn k).time.snapReq = d.time.snapReq := by simp [Dev.assignOwn]

@[simp] theorem Dev.takeRecord_snapReq (d : Dev) (n : Nat) : (d.takeRecord n).time.snapReq = d.time.snapReq := by
  unfold Dev.takeRecord
  split <;> simp

/-! Time bases and pulses (R442 to R456). -/

@[simp] theorem Dev.countFld_time (d : Dev) (r : Reg) (ix : List Nat) (hi lo n : Nat) : (d.countFld r ix hi lo n).time = d.time := rfl

@[simp] theorem Dev.discipline_snapReq (d : Dev) (i b : Nat) (caps : List Nat) (n : Nat) :
    (d.discipline i b caps n).time.snapReq = d.time.snapReq := by simp [Dev.discipline]

@[simp] theorem Dev.ppsAccept_snapReq (d : Dev) (i b : Nat) (caps : List Nat) : (d.ppsAccept i b caps).time.snapReq = d.time.snapReq := by
  simp [Dev.ppsAccept]

@[simp] theorem Dev.ppsJudge_snapReq (d : Dev) (i b : Nat) (caps : List Nat) : (d.ppsJudge i b caps).time.snapReq = d.time.snapReq := by
  simp [Dev.ppsJudge]

@[simp] theorem Dev.ppsActs_snapReq (d : Dev) (n i : Nat) : (d.ppsActs n i).time.snapReq = d.time.snapReq := by simp [Dev.ppsActs]

@[simp] theorem Dev.setPpsOut_snapReq (d : Dev) (o : Nat) (x : PpsOut) : (d.setPpsOut o x).time.snapReq = d.time.snapReq := rfl

@[simp] theorem Dev.ppsRoll_snapReq (t u : Nat) (d : Dev) (o : Nat) : (Dev.ppsRoll t u d o).time.snapReq = d.time.snapReq := by
  simp [Dev.ppsRoll]

@[simp] theorem Dev.tbRoll_snapReq (d : Dev) (t u n : Nat) : (d.tbRoll t u n).time.snapReq = d.time.snapReq := rfl

@[simp] theorem Dev.tbStart_snapReq (t u : Nat) (d : Dev) (n : Nat) : (Dev.tbStart t u d n).time.snapReq = d.time.snapReq := by
  unfold Dev.tbStart
  dsimp only
  split <;> simp

@[simp] theorem Dev.tbState_snapReq (d : Dev) (n : Nat) (s : TbState) : (d.tbState n s).time.snapReq = d.time.snapReq := by
  simp [Dev.tbState]

@[simp] theorem Dev.supvExpire_snapReq (d : Dev) (n b : Nat) : (d.supvExpire n b).time.snapReq = d.time.snapReq := by simp [Dev.supvExpire]

@[simp] theorem Dev.tbMoves_snapReq (d : Dev) (b n : Nat) : (d.tbMoves b n).time.snapReq = d.time.snapReq := by
  unfold Dev.tbMoves
  split <;> simp

/-! The pair (R501 to R512). -/

@[simp] theorem Dev.fenceRise_snapReq (d : Dev) (t : Nat) : (d.fenceRise t).time.snapReq = d.time.snapReq := by simp [Dev.fenceRise]

@[simp] theorem Dev.sampleArb_snapReq (d : Dev) (t : Nat) (i : BoundaryIn) : (d.sampleArb t i).time.snapReq = d.time.snapReq := by
  simp [Dev.sampleArb]

@[simp] theorem Dev.noteDiff_time (d : Dev) (v n : Nat) : (d.noteDiff v n).time = d.time := by simp [Dev.noteDiff]

@[simp] theorem Dev.digestCompare_time (d : Dev) (n : Nat) : (d.digestCompare n).1.time = d.time := by
  unfold Dev.digestCompare
  split
  · rfl
  · split
    · simp [apply_ite Prod.fst]
    · rfl

@[simp] theorem Dev.slipCheck_time (d : Dev) : d.slipCheck.1.time = d.time := by
  unfold Dev.slipCheck
  split <;> simp

@[simp] theorem Dev.newPass_time (d : Dev) (pass : Nat) : (d.newPass pass).time = d.time := rfl

@[simp] theorem Dev.align_time (d : Dev) (n : Nat) : (d.align n).time = d.time := rfl

@[simp] theorem Dev.installWords_time (d : Dev) (chunk : Nat) (l : List (Nat × Word)) : (d.installWords chunk l).time = d.time := rfl

@[simp] theorem Dev.setRelayQ_time (d : Dev) (k : Nat) (l : List Pkt) : (d.setRelayQ k l).time = d.time := rfl

@[simp] theorem Dev.install_snapReq (d : Dev) (s : Shingle) : (d.install s).time.snapReq = d.time.snapReq := by
  unfold Dev.install
  split <;> simp

@[simp] theorem Dev.installAll_snapReq (d : Dev) : d.installAll.time.snapReq = d.time.snapReq := by
  refine (foldl_snapReq (fun d x => ?_) _ _).trans rfl
  split <;> simp

@[simp] theorem Dev.makeGhosts_time (d : Dev) (j : Nat) : (d.makeGhosts j).time = d.time := rfl

@[simp] theorem Dev.syncStep_snapReq (d : Dev) (n : Nat) : (d.syncStep n).1.time.snapReq = d.time.snapReq := by
  simp [Dev.syncStep, apply_ite Prod.fst]

@[simp] theorem Dev.moveTo_time (d : Dev) (s : PairState) (n : Nat) : (d.moveTo s n).time = d.time := by simp [Dev.moveTo]

@[simp] theorem Dev.toState_snapReq (d : Dev) (s : PairState) (n : Nat) : (d.toState s n).time.snapReq = d.time.snapReq := by
  simp [Dev.toState]

@[simp] theorem Dev.restartCoaches_time (d : Dev) : d.restartCoaches.time = d.time := by simp [Dev.restartCoaches]

@[simp] theorem Dev.roleConflict_time (d : Dev) : d.roleConflict.time = d.time := by simp [Dev.roleConflict]

@[simp] theorem Dev.lead_snapReq (d : Dev) (n : Nat) (restart : Bool) : (d.lead n restart).time.snapReq = d.time.snapReq := by
  simp [Dev.lead]

@[simp] theorem Dev.handOver_time (d : Dev) (s : PairState) (n : Nat) : (d.handOver s n).time = d.time := by simp [Dev.handOver]

@[simp] theorem Dev.beginCoast_time (d : Dev) (n : Nat) : (d.beginCoast n).time = d.time := by simp [Dev.beginCoast]

@[simp] theorem Dev.setDet_time (d : Dev) : d.setDet.time = d.time := rfl

@[simp] theorem Dev.syncDone_snapReq (d : Dev) (n : Nat) : (d.syncDone n).time.snapReq = d.time.snapReq := by simp [Dev.syncDone]

@[simp] theorem Dev.pairRow_snapReq (d : Dev) (n : Nat) (role fence lost out done : Bool) :
    (d.pairRow n role fence lost out done).time.snapReq = d.time.snapReq := by
  unfold Dev.pairRow
  dsimp only
  split
  · simp
  · split <;> simp

@[simp] theorem Dev.pairBoundary_snapReq (d : Dev) (n : Nat) (i : BoundaryIn) (lost : Bool) :
    (d.pairBoundary n i lost).time.snapReq = d.time.snapReq := by simp [Dev.pairBoundary]

/-! All that comes before the snapshot. -/

@[simp] theorem Dev.linkStep_time (d : Dev) (p : Nat) : (d.linkStep p).time = d.time := by simp [Dev.linkStep]

@[simp] theorem Dev.beforeSteps_snapReq (d : Dev) (n t : Nat) (i : BoundaryIn) : (d.beforeSteps n t i).time.snapReq = d.time.snapReq := by
  have phases := forEach_time (n := 64) (Dev.phaseStep_time i.phase) d
  simp [Dev.beforeSteps, phases]

@[simp] theorem Dev.tbFinish_snapReq (d : Dev) (t n : Nat) : (d.tbFinish t n).time.snapReq = d.time.snapReq := rfl

end Sys2Proof.Machine
end

section
/-! SUPPORT. The boundary that takes a snapshot which was asked for (R40, R466): before the snapshot it stays asked for, after it the
snapshot stands. -/

namespace Sys2Proof.Machine

/-- The snapshot is taken once the time bases are finished, and stands in what follows step 4. -/
theorem Dev.afterSteps_snapshot {d : Dev} (asked : d.time.snapReq = true) (old : Dev) (n : Nat) (i : BoundaryIn) :
    ∃ e : Dev, (e.tbSnapshot n).SnapStands (d.afterSteps old n i) := by
  unfold Dev.afterSteps
  extract_lets finished latched domains resets lines due channels probes windows redrawn jobs counters
  have taken : latched = finished.tbSnapshot n := if_pos ((forEach_snapReq (fun d k => d.tbFinish_snapReq _ k) d).trans asked)
  have toDomains : latched.SnapStands domains :=
    ((latched.clsFinish_snapStands old).trans (Dev.whipOutLost_snapStands _)).trans (Dev.domBoundary_snapStands _ n i.badDomains)
  have toResets : domains.SnapStands resets :=
    ((domains.readTemp_snapStands i.temp).trans (Dev.blockResets_snapStands _)).trans (Dev.ridgeTrain_snapStands _)
  have toLines : resets.SnapStands lines := .each (fun d k _ => (d.sfStream_snapStands n k).trans (Dev.defectStep_snapStands _ n k)) _
  have toDue : lines.SnapStands due := lines.calDue_snapStands n
  have toChannels : due.SnapStands channels := .each (fun d c _ => d.calAbandon_snapStands c) _
  have toProbes : channels.SnapStands probes := .each (fun d k _ => d.expireProbe_snapStands n k) _
  have toWindows : probes.SnapStands windows :=
    .foldl (fun d (e : Nat × SrcDyn) => d.closeWindow_snapStands n e.1) probes.pst.src probes
  have toRedrawn : windows.SnapStands redrawn := windows.maskRedraw_snapStands n
  have toJobs : redrawn.SnapStands jobs := .opt (redrawn.addJob_snapStands .knownAnswer)
  have toCounters : jobs.SnapStands counters :=
    ((jobs.flNext_snapStands).trans (Dev.pmcWraps_snapStands _)).trans (Dev.pmcBases_snapStands _)
  have first := ((toDomains.trans toResets).trans (toLines.trans toDue)).trans (toChannels.trans toProbes)
  have last := ((toWindows.trans toRedrawn).trans (toJobs.trans toCounters)).trans (counters.pairSend_snapStands old n)
  exact ⟨finished, taken ▸ first.trans last⟩

/-- The boundary of a running device takes the snapshot for the beat that starts. -/
theorem Dev.boundaryRun_snapshot {d : Dev} (asked : d.time.snapReq = true) (i : BoundaryIn) :
    ∃ e : Dev, (e.tbSnapshot d.nextCount).SnapStands (d.boundaryRun i) := by
  let n := d.nextCount
  let t := (d.clk.count + 1) * 1200 + d.alignShift
  let old := d.endBeat
  let wrapped := { old.wrapCclk.newRecord with clk := { old.wrapCclk.clk with count := n } }
  let begun := ((wrapped.realign (n * 1200 - t)).newBeat n).whipOutEnd
  have waits : begun.time.snapReq = true := by simp [begun, wrapped, old, asked]
  have moved : (begun.beforeSteps n t i).time.snapReq = true := by simp [waits]
  obtain ⟨e, stands⟩ := Dev.afterSteps_snapshot (Dev.steps_asked moved old.wrapCclk n) old n i
  exact ⟨e, ((stands.trans (Dev.alarm_snapStands _ n)).trans (Dev.heartbeat_snapStands _)).trans (Dev.beginBeat_snapStands _ n)⟩

/-- What a snapshot for beat n leaves: nothing asked for, the whole nanoseconds of the time bases in it, and SNAP shown. -/
structure Dev.Snapped (d : Dev) (n : Nat) : Prop where
  served : d.time.snapReq = false
  beat   : d.time.snapAt = n
  values : ∀ k, k < 4 → tgetD d.time.snap k 0 = (d.tb k).val / 2 ^ 24
  shown  : d.flag .TIM_INT_STAT [] 11 = true

theorem Dev.tbSnapshot_snapped (d : Dev) (n : Nat) : (d.tbSnapshot n).Snapped n where
  served := rfl
  beat := rfl
  values := fun k hk => by
    match k, hk with
    | 0, _ | 1, _ | 2, _ | 3, _ => rfl
  shown := (Dev.sets_irq _ .TIM_INT_STAT [] (i := 11) (by decide)).flag

theorem Dev.SnapStands.snapped {a b : Dev} (stands : a.SnapStands b) {n : Nat} (h : a.Snapped n) : b.Snapped n := by
  refine ⟨?_, ?_, fun k hk => ?_, stands.shown h.shown⟩
  · rw [stands.time, h.served]
  · rw [stands.time, h.beat]
  · rw [Dev.tb, stands.time]
    exact h.values k hk

/-- The next boundary takes a snapshot that was asked for. -/
theorem State.Beats.takesSnapshot {s : State} (beats : s.Beats) (asked : s.dev.time.snapReq = true) (i : BoundaryIn) :
    s.Runs (.beatBoundary i) fun d => d.Snapped s.next := by
  let pinned := { s.start with board := { s.start.board with pins := i } }
  have runs : s.start.boundary i = pinned.boundaryRun i := by
    have calm : pinned.pst.chipReq.isSome = false := congrArg Option.isSome beats.calm
    change (if pinned.pst.chipReq.isSome then pinned.chipReaction else if pinned.clk.run then pinned.boundaryRun i
      else pinned.boundaryWait i) = _
    rw [calm, if_neg Bool.false_ne_true]
    exact if_pos beats.run
  have next : pinned.nextCount = s.next := if_neg (by simp [Dev.aligning, pinned, State.start, beats.led])
  obtain ⟨e, stands⟩ := Dev.boundaryRun_snapshot (d := pinned) asked i
  refine ⟨_, (beats.exec_beatBoundary i).trans (onDev_awake beats.awake _), rfl, ?_⟩
  rw [← next]
  have settled := stands.trans (Dev.settle_snapStands _)
  rw [← runs] at settled
  exact settled.snapped (e.tbSnapshot_snapped _)

end Sys2Proof.Machine
end

section
/-! PROOFS. Snapshots and pulses of the time bases. -/

namespace Sys2Proof.Machine

theorem State.at_fld_ppso (s : State) (t : Nat) {o : Nat} (ho : o < 4) (hi lo : Nat) :
    (s.at t).fld .TIM_PPSO_CFG [o] hi lo = s.dev.fld .TIM_PPSO_CFG [o] hi lo := by
  have still : ¬ pmcKey (Reg.key .TIM_PPSO_CFG [o]) := by simp [pmcKey, Reg.key, Reg.row]; omega
  rw [Dev.fld, Dev.fld, (s.at_keeps t).rd (by simp) still]

/-- The settings and the last edge that a rise goes by are the same when the device has reached the CCLK of the command. -/
theorem State.at_ppsRises (s : State) (t : Nat) {o sec : Nat} (ho : o < 4) (reached : (s.at t).ppsSecond o = some sec)
    (enabled : s.dev.flag .TIM_PPSO_CFG [o] 31 = true) (run : s.dev.clk.run = true)
    (counts : (s.dev.tb (s.dev.ppsoTb o)).en = true) (loud : (s.at t).squelched o = false)
    (later : ∀ l, (s.dev.ppsOut o).lastSec = some l → l < sec) : (s.at t).PpsRises o sec where
  reached := reached
  enabled := by
    rw [s.at_flag t 31 (by simp [pmcKey, Reg.key, Reg.row]; omega)]
    exact enabled
  run := by
    obtain ⟨_, same, _⟩ : Part.same .count s.dev (s.at t) := (s.at_keeps t).1 .count (by simp)
    exact same.symm.trans run
  counts := by
    rw [Dev.ppsoTb, s.at_fld_ppso t ho, Dev.tb, s.at_time]
    exact counts
  loud := loud
  later := by
    rw [Dev.ppsOut_of_time (s.at_time t)]
    exact later

/-- The pulse of an output ends once its time base has counted what was left of it. -/
theorem State.Ready.lowersOutput {s : State} {o t : Nat} (ready : s.Ready) (ho : o < 4) (high : (s.dev.ppsOut o).level = true)
    (past : (s.dev.ppsOut o).left < (s.at t).ppsRun o ((s.at t).now + 1)) : s.Runs (.ppsOutputFall o t) fun d =>
      (d.ppsOut o).level = false ∧ (d.ppsOut o).lastSec = (s.dev.ppsOut o).lastSec ∧
      (∀ j, j ≠ o → d.ppsOut j = s.dev.ppsOut j) ∧ Dev.Keeps [.time] [] (s.at t) d := by
  have same : (s.at t).ppsOut o = s.dev.ppsOut o := Dev.ppsOut_of_time (s.at_time t) o
  obtain ⟨phi, falls⟩ := Dev.ppsFall_falls (d := s.at t) (o := o) (by rw [same]; exact high) (by rw [same]; exact past)
  have effect : ((s.at t).when (decide (o < 4)) fun d => d.ppsFall o) =
      (s.at t).setPpsOut o { (s.at t).ppsOut o with level := false, phi := phi } := by
    rw [Dev.when, decide_eq_true ho]
    exact falls
  refine (ready.putsOutput (exec_ppsOutputFall o t s) effect).imp fun d ⟨put, others, keeps⟩ => ?_
  rw [put]
  exact ⟨rfl, (congrArg PpsOut.lastSec same :), others, keeps⟩

/-- Settles O47. The commands of the inputs and outputs put their capture or pulse into the device that they find; a snapshot that was
asked for stays so until the time bases of the next boundary are finished, and stands in what follows them. -/
theorem timeIsCapturedAndPulsed : Obligations.TimeIsCapturedAndPulsed := by
  unfold Obligations.TimeIsCapturedAndPulsed
  intro s ready
  refine ⟨ready.asksSnapshot, fun i t phi held fall hi hphi => ⟨fun taken own => ?_, ready.keepsEdge hi hphi, ready.ignoresEdge hi⟩,
    fun i beats asked => ?_, fun o t sec ho reached enabled run live counts loud later => ?_,
    fun o t ho high past => ready.lowersOutput ho high past⟩
  · refine (ready.capturesEdge hi hphi taken own).imp fun d ⟨captured, rest⟩ => ?_
    rw [captured]
    exact ⟨rfl, rfl, rfl, rfl, rest⟩
  · exact (beats.takesSnapshot asked i).imp fun d snapped => ⟨snapped.served, snapped.beat, snapped.values, snapped.shown⟩
  · refine ready.putsOutput (exec_ppsOutputRise o t s) ?_
    rw [← s.at_fld_ppso t ho, ← Dev.ppsRise_rises ho (s.at_ppsRises t ho reached enabled run counts loud later)]
    simp [Dev.when, ho, live]

end Sys2Proof.Machine
end

section
/-! SUPPORT. Commands that change the pair's part or the batch store alone, run to their end; an event leaves ASTRAY as it is. -/

namespace Sys2Proof.Machine

theorem Dev.batch_keeps (d : Dev) (x : BatchUnit) : Dev.Keeps [.batch] [] d { d with batch := x } := by
  refine ⟨fun p hp => ?_, fun _ _ _ => rfl⟩
  cases p <;> simp_all [Part.same]

theorem Dev.Keeps.pair {ps : List Part} {ks : List Nat} {a b : Dev} (h : Dev.Keeps ps ks a b) (hp : Part.pair ∉ ps) :
    b.pair = a.pair := (h.1 .pair hp :).symm

theorem Dev.Keeps.batch {ps : List Part} {ks : List Nat} {a b : Dev} (h : Dev.Keeps ps ks a b) (hp : Part.batch ∉ ps) :
    b.batch = a.batch := (h.1 .batch hp :).symm

/-- A command whose effect is another pair part. -/
theorem State.Ready.runs_pair {s : State} {c : Instr} {f : Dev → Dev} {x : Pair} (ready : s.Ready) (he : exec c s = onDev s f)
    (effect : f s.start = { s.start with pair := x }) : s.Runs c fun d => d.pair = x ∧ Dev.Keeps [.pair] [] s.dev d := by
  have keeps : Dev.Keeps [.pair] [] s.start (f s.start) := effect ▸ s.start.pair_keeps x
  refine ready.runs he keeps (keeps.sameConds (by decide)) (by simp) (by simp) fun d rest _ frame => ⟨?_, frame⟩
  rw [rest.pair (by simp), effect]

/-- A command whose effect changes the batch store alone. -/
theorem State.Ready.runs_batch {s : State} {c : Instr} {f : Dev → Dev} (ready : s.Ready) (he : exec c s = onDev s f)
    (keeps : Dev.Keeps [.batch] [] s.start (f s.start)) :
    s.Runs c fun d => d.batch = (f s.start).batch ∧ Dev.Keeps [.batch] [] s.dev d :=
  ready.runs he keeps (keeps.sameConds (by decide)) (by simp) (by simp) fun _ rest _ frame => ⟨rest.batch (by simp), frame⟩

/-! What an event does to the pair's part: a Whip trigger may be noted there, and nothing else. -/

theorem Dev.whipFault_astray (d : Dev) (s : Nat) (hi fatal : Bool) : (d.whipFault s hi fatal).pair.astray = d.pair.astray := by
  have trigger : (d.whipTrigger 2 s).pair.astray = d.pair.astray := by
    unfold Dev.whipTrigger
    cases d.pair.state <;> rfl
  unfold Dev.whipFault
  dsimp only
  split
  · exact trigger
  · rfl

theorem Dev.classify_astray (d : Dev) {s sev : Nat} (h : sev ≠ 2) : (d.classify s sev).pair.astray = d.pair.astray := by
  have mild : ∀ (e : Dev) set, ((e.react s set false).whipFault s false false).pair.astray = e.pair.astray := fun e set => by
    rw [Dev.whipFault_astray, (e.react_keeps s set false).pair (by simp)]
  have severe : ∀ (e : Dev) set, (((e.react s set false).pmcEvent 15 2).whipFault s true false).pair.astray = e.pair.astray :=
    fun e set => by
      rw [Dev.whipFault_astray, (Dev.pmcEvent_keeps _ 2 none 1 (by decide)).pair (by simp), (e.react_keeps s set false).pair (by simp)]
  unfold Dev.classify
  extract_lets x hiSet loSet
  rw [if_neg (by simpa using h)]
  split
  · split
    · exact severe _ hiSet
    · exact mild _ loSet
  · split
    · exact severe _ hiSet
    · exact mild _ loSet

theorem Dev.oneEvent_astray (d : Dev) {s sev : Nat} (h : sev ≠ 2) : (d.oneEvent sev s).pair.astray = d.pair.astray := by
  have counts : ∀ e : Dev, (e.pmcEvent 15 1).pair = e.pair := fun e => (e.pmcEvent_keeps 1 none 1 (by decide)).pair (by simp)
  unfold Dev.oneEvent
  split
  · rfl
  · simp [Dev.classify_astray _ h, counts, Dev.irq]

theorem Dev.raise_astray (d : Dev) {s : Nat} (h : srcSeverity s 2 ≠ 2) : (d.raise s).pair.astray = d.pair.astray := by
  unfold Dev.raise Dev.events
  split
  · rfl
  · exact d.oneEvent_astray h

end Sys2Proof.Machine
end

section
/-! PROOFS. Messages of the partner: boundary records, digests, commands and shingles (R482, R491, R495, R513, R514). -/

namespace Sys2Proof.Machine

theorem exec_boundaryRecordReceive (b : Bytes) (s : State) :
    exec (.boundaryRecordReceive b) s = onDev s fun d => d.recordReceive b := rfl

theorem exec_digestMessageReceive (b : Bytes) (arrive : Int) (s : State) :
    exec (.digestMessageReceive b arrive) s = onDev s fun d => d.digestReceive b arrive := rfl

theorem exec_commandReceive (l : List PairCmd) (s : State) :
    exec (.commandReceive l) s = onDev s fun d => d.commandReceive l := rfl

theorem exec_copyReceive (m : CopyMsg) (s : State) : exec (.copyReceive m) s = onDev s fun d => d.copyReceive m := rfl

theorem Dev.takesChannels_standby {d : Dev} (h : d.pair.state = .standby) : d.takesChannels = true := by
  simp [Dev.takesChannels, h]

/-- A device that leads or is fenced takes nothing from the channels, but for the beat after a handover to it (R482, R508). -/
theorem Dev.takesChannels_shut {d : Dev} (notStandby : d.pair.state ≠ .standby) (notSyncing : d.pair.state ≠ .syncing)
    (notNew : ¬ (d.pair.handed = true ∧ d.pair.state = .active)) : d.takesChannels = false := by
  have new : d.tookOver = false := by simpa [Dev.tookOver] using notNew
  simp [Dev.takesChannels, notStandby, notSyncing, new]

/-! Boundary records. -/

/-- A record that is due and not too late is held as the newest (R482). -/
theorem Dev.recordReceive_holds {d : Dev} {b : Bytes} {r : BRecord} (takes : d.takesChannels = true) (reads : readRecord b = some r)
    (whole : r.ovf = false ∨ d.pair.coast = true) (due : d.pair.recFrom ≤ r.beat) (began : r.beat ≤ d.beat)
    (inTime : d.beat ≤ r.beat + 1) : d.recordReceive b = { d with pair := { d.pair with recs := (r :: d.pair.recs).take 4 } } := by
  have fits : (r.ovf && !d.pair.coast) = false := by rcases whole with h | h <;> simp [h]
  simp [Dev.recordReceive, reads, takes, Nat.not_lt.2 due, Nat.not_lt.2 began, inTime, fits]

theorem Dev.recordReceive_shut {d : Dev} (b : Bytes) (shut : d.takesChannels = false) : d.recordReceive b = d := by
  unfold Dev.recordReceive
  split
  · simp [shut]
  · rfl

/-! Digest messages. -/

/-- The pair's part once it holds a digest message that arrived at an offset (R495, R499, R504). -/
def Pair.digested (p : Pair) (m : DigestMsg) (arrive : Int) : Pair :=
  { p with digests := (m :: p.digests).take 4, partner := m.state, arrive := arrive, peerFloor := max p.peerFloor m.floor,
           skew := wrap1200 ((arrive - m.arrive) / 2), lat := (wrap1200 ((arrive + m.arrive) / 2) % 4096).toNat }

/-- A digest message that asks this device for no Whip trigger does no more than that (R568). -/
theorem Dev.digestReceive_holds {d : Dev} {b : Bytes} (arrive : Int) (len : b.length = 128) (runs : d.halt = false)
    (noWhip : (readDigest b).whipReq = false ∨ d.pair.state ≠ .active) :
    d.digestReceive b arrive = { d with pair := d.pair.digested (readDigest b) arrive } := by
  have quiet : ((readDigest b).whipReq && d.pair.state == .active) = false := by rcases noWhip with h | h <;> simp [h]
  simp [Dev.digestReceive, len, runs, quiet, Pair.digested]

theorem Dev.digestReceive_malformed (d : Dev) {b : Bytes} (arrive : Int) (len : b.length ≠ 128) : d.digestReceive b arrive = d := by
  simp [Dev.digestReceive, len]

/-! Commands. -/

theorem Dev.commandReceive_one {d : Dev} (c : PairCmd) (takes : d.takesChannels = true) :
    d.commandReceive [c] = d.takeCommand c := by
  simp [Dev.commandReceive, takes]

theorem Dev.commandReceive_shut {d : Dev} (l : List PairCmd) (shut : d.takesChannels = false) : d.commandReceive l = d := by
  simp [Dev.commandReceive, shut]

/-- A word for which the open batch holds no earlier one joins it, while there is room for one more (R43, R44). -/
theorem Dev.stage_appends {d : Dev} {k : Nat} {v : Word} (new : ∀ x ∈ d.batch.open_, entrySame (.word k v) x = false)
    (room : d.storeSize < 16384) :
    d.stage (.word k v) = { d with batch := { d.batch with open_ := d.batch.open_ ++ [.word k v] } } := by
  have other : d.batch.open_.any (entrySame (.word k v)) = false := by simpa using new
  have fits : d.storeSize + entrySize (.word k v) ≤ 16384 := room
  rw [Dev.stage, other, if_neg Bool.false_ne_true, if_pos fits]

/-- The batch store once the open batch is accepted for beat a. -/
def Dev.batchSealed (d : Dev) (a : Nat) : BatchUnit :=
  { d.batch with
    open_ := [], ovf := false, lastSeq := (d.batch.lastSeq + 1) % 256, lastRes := .accepted, lastBeat := a
    sealed := d.batch.sealed ++ [⟨(d.batch.lastSeq + 1) % 256, a, d.batch.open_⟩]
    latUntil := match d.lowersLat d.batch.open_ with
      | some l => max d.batch.latUntil (a + l)
      | none => d.batch.latUntil }

theorem Dev.acceptBatch_eq (d : Dev) (a : Nat) : d.acceptBatch a = ({ d with batch := d.batchSealed a } : Dev).pmcEvent 3 1 := rfl

theorem Dev.acceptBatch_keeps (d : Dev) (a : Nat) : Dev.Keeps [.batch] [] d (d.acceptBatch a) := by
  rw [d.acceptBatch_eq]
  exact (d.batch_keeps _).trans ((Dev.pmcEvent_keeps _ (b := 3) 1 none 1 (by decide)).mono (by simp) (by simp))

theorem Dev.acceptBatch_batch (d : Dev) (a : Nat) : (d.acceptBatch a).batch = d.batchSealed a := by
  rw [d.acceptBatch_eq]
  exact (Dev.pmcEvent_keeps _ (b := 3) 1 none 1 (by decide)).batch (by simp)

/-- The device in which CMD_LOST is counted and shown, and its event of F062 still to come (R491, R535). -/
def Dev.cmdMissed (d : Dev) : Dev := ((d.pairCnt 1).irq .PAIR_INT_STAT 3).goAstray

/-- Words that CMD_LOST changes before its event. -/
def lostKeys : List Nat := [Reg.key .PAIR_CNT [1], Reg.key .PAIR_INT_STAT]

theorem Dev.cmdMissed_keeps (d : Dev) : Dev.Keeps [.pair] lostKeys d d.cmdMissed := by
  have counted : Dev.Keeps [.pair] lostKeys d (d.pairCnt 1) := (d.count_keeps .PAIR_CNT [1] 1).mono (by simp) (by simp [lostKeys])
  have shown := counted.trans ((Dev.irq_keeps _ .PAIR_INT_STAT 3 []).mono (by simp) (by simp [lostKeys]))
  exact shown.trans ((Dev.pair_keeps _ _).mono (by simp) (by simp))

theorem Dev.cmdLost_eq (d : Dev) : d.cmdLost = d.cmdMissed.raise 62 := rfl

theorem Dev.cmdLost_keeps (d : Dev) : Dev.Keeps eventParts (lostKeys ++ eventKeys 62) d d.cmdLost :=
  (d.cmdMissed_keeps.mono (by simp [eventParts]) (by simp +contextual)).trans
    ((Dev.raise_keeps _ (s := 62) (by decide)).mono (by simp) (by simp +contextual))

theorem Dev.cmdLost_sameConds (d : Dev) : d.SameConds d.cmdLost :=
  (d.cmdMissed_keeps.sameConds (by decide)).trans (Dev.raise_sameConds _ (by decide))

/-- What a lost COMMAND channel leaves (R491, R501, R523). -/
structure Dev.CmdLost (a b : Dev) : Prop where
  counts  : Dev.Counts a b .PAIR_CNT [1] 1
  shows   : Dev.Sets a b .PAIR_INT_STAT [] 8
  reports : Dev.Reports a b 62
  astray  : b.pair.astray = true

theorem Dev.cmdLost_leaves {d : Dev} (hears : d.hears 62) : d.CmdLost d.cmdLost := by
  have counted := d.count_keeps .PAIR_CNT [1] 1
  have shown := (d.pairCnt 1).irq_keeps .PAIR_INT_STAT 3 []
  have raised : Dev.Keeps eventParts (eventKeys 62) ((d.pairCnt 1).irq .PAIR_INT_STAT 3) d.cmdLost :=
    ((Dev.pair_keeps _ _).mono (by simp [eventParts]) (by simp)).trans (d.cmdMissed.raise_keeps (by decide))
  obtain ⟨pend, told⟩ := Dev.raise_reports (d := d.cmdMissed) (s := 62) hears (by decide) (by decide)
  have same : d.cmdMissed.rd .PST_SRC_CNT [62] = d.rd .PST_SRC_CNT [62] :=
    d.cmdMissed_keeps.rd (by decide) (by unfold pmcKey; decide)
  exact
    { counts := ((d.counts_count .PAIR_CNT [1] 1).after shown (by decide) (by unfold pmcKey; decide)).after raised (by decide)
        (by unfold pmcKey; decide)
      shows := ((d.pairCnt 1).sets_irq .PAIR_INT_STAT [] (i := 3) (by decide)).between counted raised (by decide) (by decide)
        (by unfold pmcKey; decide)
      reports := ⟨pend, by rw [Dev.Counts, d.cmdLost_eq, told, same]⟩
      astray := d.cmdMissed.raise_astray (by decide) }

/-- Quiet changes leave the account of a lost channel. -/
theorem Dev.CmdLost.after {a b c : Dev} (h : a.CmdLost b) (k : Dev.Keeps [] [] b c) : a.CmdLost c where
  counts  := h.counts.after k (by simp) (by unfold pmcKey; decide)
  shows   := h.shows.between (.refl [] [] a) k (by simp) (by simp) (by unfold pmcKey; decide)
  reports := ⟨(k.flag 31 (by simp) (by unfold pmcKey; decide)).trans h.reports.1,
    h.reports.2.after k (by simp) (by unfold pmcKey; decide)⟩
  astray  := by rw [k.pair (by simp), h.astray]

/-- A lost COMMAND channel (R491, R535). -/
theorem State.Ready.losesCommand {s : State} (ready : s.Ready) (takes : s.start.takesChannels = true) (hears : s.dev.hears 62) :
    s.Runs (.commandReceive [.lost]) fun d => s.dev.CmdLost d ∧ Dev.Keeps eventParts (lostKeys ++ eventKeys 62) s.dev d := by
  have effect : s.start.commandReceive [.lost] = s.start.cmdLost := Dev.commandReceive_one .lost takes
  refine ready.runs (exec_commandReceive [.lost] s) (effect ▸ s.start.cmdLost_keeps) (effect ▸ s.start.cmdLost_sameConds)
    (by decide) (by decide) fun d rest _ frame => ⟨?_, frame⟩
  obtain ⟨counts, shows, reports, astray⟩ := Dev.cmdLost_leaves (d := s.start) hears
  have lost : s.dev.CmdLost s.start.cmdLost := ⟨counts, shows, reports, astray⟩
  exact (effect ▸ lost).after rest

/-- A forwarded write at a device that takes commands (R43, R491). -/
theorem State.Ready.takesWrite {s : State} {k : Nat} {v : Word} (ready : s.Ready) (takes : s.start.takesChannels = true)
    (new : ∀ x ∈ s.dev.batch.open_, entrySame (.word k v) x = false) (room : s.dev.storeSize < 16384) :
    s.Runs (.commandReceive [.write k v]) fun d =>
      d.batch = { s.dev.batch with open_ := s.dev.batch.open_ ++ [.word k v] } ∧ Dev.Keeps [.batch] [] s.dev d := by
  have effect := (Dev.commandReceive_one (.write k v) takes).trans (Dev.stage_appends new room)
  refine (ready.runs_batch (exec_commandReceive _ s) (effect ▸ s.start.batch_keeps _)).imp fun d ⟨batch, frame⟩ => ⟨?_, frame⟩
  rw [batch, effect]
  rfl

/-- A forwarded discard (R50, R491). -/
theorem State.Ready.takesDiscard {s : State} (ready : s.Ready) (takes : s.start.takesChannels = true) :
    s.Runs (.commandReceive [.discard]) fun d =>
      d.batch = { s.dev.batch with open_ := [], ovf := false } ∧ Dev.Keeps [.batch] [] s.dev d := by
  have effect : s.start.commandReceive [.discard] = s.start.discardOpen := Dev.commandReceive_one .discard takes
  refine (ready.runs_batch (exec_commandReceive _ s) (effect ▸ s.start.batch_keeps _)).imp fun d ⟨batch, frame⟩ => ⟨?_, frame⟩
  rw [batch, effect]
  rfl

/-- A forwarded seal (R45, R491). -/
theorem State.Ready.takesSeal {s : State} (ready : s.Ready) (takes : s.start.takesChannels = true) (a : Nat) :
    s.Runs (.commandReceive [.seal a]) fun d => d.batch = s.start.batchSealed a ∧ Dev.Keeps [.batch] [] s.dev d := by
  have effect : s.start.commandReceive [.seal a] = s.start.acceptBatch a := Dev.commandReceive_one (.seal a) takes
  refine (ready.runs_batch (exec_commandReceive _ s) (effect ▸ s.start.acceptBatch_keeps a)).imp fun d ⟨batch, frame⟩ => ⟨?_, frame⟩
  rw [batch, effect, Dev.acceptBatch_batch]

/-! Shingles. -/

theorem mem_keys_of_tget {α : Type} {t : Tab α} {i : Nat} {x : α} (h : tget t i = some x) : i ∈ t.map (·.1) := by
  induction t with
  | nil => cases h
  | cons e r ih =>
    obtain ⟨k, v⟩ := e
    simp only [tget] at h
    split at h
    · next same => simp [beq_iff_eq.1 same]
    · exact List.mem_cons_of_mem _ (ih h)

/-- A key at which two tables differ is a key of one of them. -/
theorem mem_keys_of_tget_ne {α : Type} {t u : Tab α} {i : Nat} (h : tget t i ≠ tget u i) : i ∈ t.map (·.1) ++ u.map (·.1) := by
  cases ht : tget t i with
  | some x => exact List.mem_append_left _ (mem_keys_of_tget ht)
  | none =>
    cases hu : tget u i with
    | some x => exact List.mem_append_right _ (mem_keys_of_tget hu)
    | none => exact absurd (ht.trans hu.symm) h

/-- The device's own change list of a beat (R514). -/
def Dev.ownChanges (d : Dev) (beat : Nat) : List (Nat × Word) :=
  ((d.pair.changed.find? fun e => e.1 == beat).map (·.2)).getD []

/-- A shingle taken by a beat, of which the active's change list of that beat and the device's own differ (R514). -/
def Dev.StaleBy (d : Dev) (beat : Nat) (l : List (Nat × Word)) (y : Nat) : Prop :=
  tget l y ≠ tget (d.ownChanges beat) y ∧ ∃ b, tget d.pair.taken y = some b ∧ b ≤ beat

/-- The shingles marked once a change list is compared. -/
def Dev.marksWith (d : Dev) (beat : Nat) (l : List (Nat × Word)) : List Nat :=
  (d.pair.marked ++ ((l.map (·.1)) ++ (d.ownChanges beat).map (·.1)).eraseDups.filter fun x =>
    tget l x != tget (d.ownChanges beat) x && (tget d.pair.taken x).any fun b => b ≤ beat).eraseDups

theorem Dev.markChanges_eq (d : Dev) (beat : Nat) (l : List (Nat × Word)) :
    d.markChanges beat l = { d with pair := { d.pair with marked := d.marksWith beat l } } := rfl

theorem Dev.mem_marksWith {d : Dev} {beat : Nat} {l : List (Nat × Word)} {y : Nat} :
    y ∈ d.marksWith beat l ↔ y ∈ d.pair.marked ∨ d.StaleBy beat l y := by
  have test : (tget l y != tget (d.ownChanges beat) y && (tget d.pair.taken y).any fun b => b ≤ beat) = true ↔
      d.StaleBy beat l y := by
    simp [Dev.StaleBy, Option.any_eq_true]
  rw [Dev.marksWith, List.mem_eraseDups, List.mem_append, List.mem_filter, List.mem_eraseDups, test]
  exact or_congr_right ⟨fun h => h.2, fun stale => ⟨mem_keys_of_tget_ne stale.1, stale⟩⟩

/-- The pair's part with a shingle at its place in the pass: the first begins a pass, one out of turn leaves a gap (R514). -/
def Pair.placed (p : Pair) (x : CopyItem) : Pair :=
  { p with
    pass := if x.ix == 0 && p.nextIx != 0 then min 63 (p.pass + 1) else p.pass
    gap := if x.ix == 0 then false else p.gap || x.ix != p.nextIx
    nextIx := x.ix + 1, left := x.total - (x.ix + 1) }

/-- The last shingle ends the pass, which is whole when it has no gap. -/
def Pair.ended (p : Pair) (x : CopyItem) : Pair := { p with whole := p.whole || (x.ix + 1 == x.total && !p.gap) }

/-- A shingle whose parts are read is held, noted as taken and no longer marked (R513, R514). -/
def Pair.copies (p : Pair) (x : CopyItem) (l : List Shingle) : Pair :=
  { p with copied := p.copied ++ [{ x with parts := l }], taken := tset p.taken x.num x.at_, marked := p.marked.filter (· != x.num) }

theorem Dev.takeItem_read {d : Dev} {x : CopyItem} {l : List Shingle} (reads : d.shingleParts x.at_ x.parts = some l) :
    d.takeItem x = { d with pair := ((d.pair.placed x).copies x l).ended x } := by
  simp only [Dev.takeItem, reads]
  rfl

theorem Dev.takeItem_unread {d : Dev} {x : CopyItem} (reads : d.shingleParts x.at_ x.parts = none) :
    d.takeItem x = { d with pair := Pair.ended { d.pair.placed x with marked := (d.pair.marked ++ [x.num]).eraseDups } x } := by
  simp only [Dev.takeItem, reads]
  rfl

/-- The last shingle of a pass without a gap makes it whole (R514). -/
theorem Pair.ended_whole {p : Pair} {x : CopyItem} (last : x.ix + 1 = x.total)
    (turn : x.ix = 0 ∨ p.gap = false ∧ x.ix = p.nextIx) (l : List Shingle) : (((p.placed x).copies x l).ended x).whole = true := by
  rcases turn with first | ⟨gap, next⟩
  · simp [Pair.ended, Pair.copies, Pair.placed, ← last, first]
  · simp [Pair.ended, Pair.copies, Pair.placed, ← last, gap, next]

theorem Dev.copyReceive_one {d : Dev} (state : d.pair.state = .syncing) (phase : d.pair.phase = 2) (beat : Nat)
    (ch : List (Nat × Word)) (x : CopyItem) : d.copyReceive ⟨beat, ch, false, [x], false⟩ = (d.markChanges beat ch).takeItem x := by
  simp [Dev.copyReceive, state, phase]

theorem Dev.copyReceive_lost {d : Dev} {m : CopyMsg} (state : d.pair.state = .syncing) (phase : d.pair.phase = 2)
    (lost : m.lost = true ∨ m.tooLong = true) : d.copyReceive m = d.copyLost := by
  simp [Dev.copyReceive, state, phase, lost]

theorem Dev.copyReceive_shut {d : Dev} (m : CopyMsg) (state : d.pair.state ≠ .syncing) : d.copyReceive m = d := by
  simp [Dev.copyReceive, state]

/-- A shingle that can be read, with the change list of its beat. -/
theorem State.Ready.copiesShingle {s : State} {x : CopyItem} {l : List Shingle} (ready : s.Ready)
    (state : s.dev.pair.state = .syncing) (phase : s.dev.pair.phase = 2) (beat : Nat) (ch : List (Nat × Word))
    (reads : s.dev.shingleParts x.at_ x.parts = some l) : s.Runs (.copyReceive ⟨beat, ch, false, [x], false⟩) fun d =>
      d.pair = ((Pair.placed { s.dev.pair with marked := s.dev.marksWith beat ch } x).copies x l).ended x ∧
      Dev.Keeps [.pair] [] s.dev d := by
  refine ready.runs_pair (exec_copyReceive _ s) ?_
  rw [Dev.copyReceive_one (d := s.start) state phase, s.start.markChanges_eq]
  exact Dev.takeItem_read reads

/-- A shingle that cannot be read, with the change list of its beat. -/
theorem State.Ready.marksUnread {s : State} {x : CopyItem} (ready : s.Ready)
    (state : s.dev.pair.state = .syncing) (phase : s.dev.pair.phase = 2) (beat : Nat) (ch : List (Nat × Word))
    (reads : s.dev.shingleParts x.at_ x.parts = none) : s.Runs (.copyReceive ⟨beat, ch, false, [x], false⟩) fun d =>
      d.pair.copied = s.dev.pair.copied ∧ x.num ∈ d.pair.marked ∧ Dev.Keeps [.pair] [] s.dev d := by
  have effect : s.start.copyReceive ⟨beat, ch, false, [x], false⟩ = _ :=
    (Dev.copyReceive_one (d := s.start) state phase beat ch x).trans (Dev.takeItem_unread reads)
  refine (ready.runs_pair (exec_copyReceive _ s) effect).imp fun d ⟨pair, frame⟩ => ?_
  rw [pair]
  exact ⟨rfl, List.mem_eraseDups.2 (List.mem_append_right _ (List.mem_singleton_self _)), frame⟩

/-- The marks of the shingles other than the one that is held are those of the change list (R514). -/
theorem Pair.mem_marked_copies {p : Pair} {x : CopyItem} (l : List Shingle) {y : Nat} :
    y ∈ (((p.placed x).copies x l).ended x).marked ↔ y ∈ p.marked ∧ y ≠ x.num := by
  simp [Pair.ended, Pair.copies, Pair.placed]

/-- Settles O55: each message of the partner is one update of the pair's part or of the batch store, and one that its receiver does not
take has no effect. -/
theorem pairMessagesAreTaken : Obligations.PairMessagesAreTaken := by
  unfold Obligations.PairMessagesAreTaken
  intro s ready p
  refine ⟨fun b r standby reads whole due began inTime => ?_, fun b ar len runs noWhip => ?_, fun b ar len => ?_,
    fun standby => ?_, fun syncing copy => ⟨fun x beat ch => ?_, fun m lost => ?_⟩, fun notStandby notSyncing notNew => ?_⟩
  · exact ready.runs_pair (exec_boundaryRecordReceive b s)
      (Dev.recordReceive_holds (Dev.takesChannels_standby standby) reads whole due began inTime)
  · refine (ready.runs_pair (exec_digestMessageReceive b ar s)
      (Dev.digestReceive_holds (d := s.start) ar len runs noWhip)).imp fun d ⟨pair, frame⟩ => ?_
    rw [pair]
    exact ⟨rfl, rfl, rfl, rfl, rfl, frame⟩
  · exact ready.runs_idle (exec_digestMessageReceive b ar s) (s.start.digestReceive_malformed ar len)
  · have takes : s.start.takesChannels = true := Dev.takesChannels_standby standby
    refine ⟨fun k v new room => ready.takesWrite takes new room, ready.takesDiscard takes, fun a => ?_, fun hears => ?_⟩
    · refine (ready.takesSeal takes a).imp fun d ⟨batch, frame⟩ => ?_
      rw [batch]
      exact ⟨rfl, rfl, frame⟩
    · exact (ready.losesCommand takes hears).imp fun d ⟨lost, frame⟩ =>
        ⟨lost.counts, lost.shows, lost.reports, lost.astray, frame⟩
  · refine ⟨fun l reads => (ready.copiesShingle syncing copy beat ch reads).imp fun d ⟨pair, frame⟩ => ?_,
      ready.marksUnread syncing copy beat ch⟩
    rw [pair]
    refine ⟨rfl, tget_tset_self _ _ _, fun marked => ?_, fun y other => ?_, rfl, fun last turn => Pair.ended_whole last turn l, rfl,
      frame⟩
    · exact ((Pair.mem_marked_copies l).1 marked).2 rfl
    · exact ((Pair.mem_marked_copies l).trans (and_iff_left other)).trans Dev.mem_marksWith
  · exact ready.runs_pair (exec_copyReceive m s) (Dev.copyReceive_lost (d := s.start) syncing copy lost)
  · have shut : s.start.takesChannels = false := Dev.takesChannels_shut notStandby notSyncing notNew
    exact ⟨fun l => ready.runs_idle (exec_commandReceive l s) (Dev.commandReceive_shut l shut),
      fun b => ready.runs_idle (exec_boundaryRecordReceive b s) (Dev.recordReceive_shut b shut),
      fun m => ready.runs_idle (exec_copyReceive m s) (Dev.copyReceive_shut m notSyncing)⟩

end Sys2Proof.Machine
end
